-- ==== Sys2Proof/Word.lean ====
section
/-! DEFINITION. The word types of the chlorosnd core (10_state.md; widths R21 to R33, decision D8 of 92_eei_decisions.md). -/

namespace Sys2Proof

/-- A byte: a POKE value, a table level, a cell of sample memory (R71, R100). -/
abbrev Byte := BitVec 8

/-- A 16-bit register or register address: `G.egsel`, `G.wptr`, loop offsets (R21, R30, R100). -/
abbrev Reg16 := BitVec 16

/-- A signed 16-bit value (i16): coefficients, delay entries, samples, outputs (R28, R29, R300). -/
abbrev Sample := BitVec 16

/-- An index of an EG as a channel stores it: 4 bits (R33). -/
abbrev EgIndex := BitVec 4

/-- A channel's read pointer: log2 of MEM_SIZE bits, 15 at the default size (R32). -/
abbrev Ptr := BitVec 15

/-- The side of a render call: selects a volume, a delay line, and whether the rate accumulator runs
(the glossary of 00_scope.md; R260). -/
inductive Side where
  | left
  | right
  deriving DecidableEq, Repr

end Sys2Proof
end

