-- ==== Sys2Proof/Syntax.lean ====
section
/-! DEFINITION. The whole syntax: one constructor of `Instr` for each of the 97 rows of spec/opcode_table.json, the host's
transactions (R11, R100) and the reasons a bit string is not one (R112). -/

namespace Sys2Proof

/-- What the host issues, one at a time (R11). A POKE is the 24-bit word of format P: register in bits 23:8, value in
bits 7:0 (R100). INIT and DESTROY have no operand, RENDER has a u32 frame count (R115). -/
inductive Transaction where
  | poke (word : BitVec 24)
  | init
  | destroy
  | render (frameCount : BitVec 32)
  deriving DecidableEq, Repr

/-- Why the decoder reads no instruction. No transaction of the host meets `noSubRegister` (R111, R332). -/
inductive DecodeReject where
  /-- A string of bits that is not one 24-bit transaction of format P: there is one length and one format (R112). -/
  | notOneTransaction
  /-- A sub-register index outside its block, which the address ranges of R101 rule out. -/
  | noSubRegister
  deriving DecidableEq, Repr

/-- The operations (R13): a POKE to one register address, a host operation, or an internal micro-operation.
An ignored block that covers several addresses carries the address poked. -/
inductive Instr where
  | gCtrl (value : Byte)
  | gChsel (value : Byte)
  | gEgselLo (value : Byte)
  | gEgselHi (value : Byte)
  | gWptrLo (value : Byte)
  | gWptrHi (value : Byte)
  | gWdata (value : Byte)
  | egCtrl (value : Byte)
  | egMul (value : Byte)
  | egHold (value : Byte)
  | egStride (value : Byte)
  | egTbl0 (value : Byte)
  | egTbl1 (value : Byte)
  | egTbl2 (value : Byte)
  | egTbl3 (value : Byte)
  | egTbl4 (value : Byte)
  | egTbl5 (value : Byte)
  | egTbl6 (value : Byte)
  | egTbl7 (value : Byte)
  | egTbl8 (value : Byte)
  | egTbl9 (value : Byte)
  | egTbl10 (value : Byte)
  | egTbl11 (value : Byte)
  | egTbl12 (value : Byte)
  | egTbl13 (value : Byte)
  | egTbl14 (value : Byte)
  | egTbl15 (value : Byte)
  | egTbl16 (value : Byte)
  | egTbl17 (value : Byte)
  | egTbl18 (value : Byte)
  | egTbl19 (value : Byte)
  | egTbl20 (value : Byte)
  | egTbl21 (value : Byte)
  | egTbl22 (value : Byte)
  | egTbl23 (value : Byte)
  | egTbl24 (value : Byte)
  | egTbl25 (value : Byte)
  | egTbl26 (value : Byte)
  | egTbl27 (value : Byte)
  | egTbl28 (value : Byte)
  | egTbl29 (value : Byte)
  | egTbl30 (value : Byte)
  | egTbl31 (value : Byte)
  | egTbl32 (value : Byte)
  | egTbl33 (value : Byte)
  | egTbl34 (value : Byte)
  | egTbl35 (value : Byte)
  | egTbl36 (value : Byte)
  | egTbl37 (value : Byte)
  | egTbl38 (value : Byte)
  | egTbl39 (value : Byte)
  | chCtrl (value : Byte)
  | chVolL (value : Byte)
  | chVolR (value : Byte)
  | chAccmax (value : Byte)
  | chAeg (value : Byte)
  | chFeg0 (value : Byte)
  | chFeg1 (value : Byte)
  | chFeg2 (value : Byte)
  | chFeg3 (value : Byte)
  | chFeg4 (value : Byte)
  | chFeg5 (value : Byte)
  | chFeg6 (value : Byte)
  | chFeg7 (value : Byte)
  | chFeg8 (value : Byte)
  | chFeg9 (value : Byte)
  | chLoopsLo (value : Byte)
  | chLoopsHi (value : Byte)
  | chLoopeLo (value : Byte)
  | chLoopeHi (value : Byte)
  | ignored0007 (value : Byte)
  | ignored0008 (register : Reg16) (value : Byte)
  | ignored0010 (register : Reg16) (value : Byte)
  | ignored0020 (register : Reg16) (value : Byte)
  | ignored006C (register : Reg16) (value : Byte)
  | ignored0070 (register : Reg16) (value : Byte)
  | ignored008F (value : Byte)
  | ignored0094 (register : Reg16) (value : Byte)
  | ignored0098 (register : Reg16) (value : Byte)
  | ignored00A0 (register : Reg16) (value : Byte)
  | ignored00C0 (register : Reg16) (value : Byte)
  | ignored0100 (register : Reg16) (value : Byte)
  | ignored0200 (register : Reg16) (value : Byte)
  | ignored0400 (register : Reg16) (value : Byte)
  | ignored0800 (register : Reg16) (value : Byte)
  | ignored1000 (register : Reg16) (value : Byte)
  | ignored2000 (register : Reg16) (value : Byte)
  | ignored4000 (register : Reg16) (value : Byte)
  | ignored8000 (register : Reg16) (value : Byte)
  | init
  | destroy
  | render (frameCount : BitVec 32)
  | frame
  | chRender (c : Fin 8) (side : Side)
  | egRender (e : Fin 16) (useExponential : Bool)
  | stageProcess (c : Fin 8) (s : Fin 2) (input : Sample) (side : Side)
  | lut (level : Byte)
  deriving DecidableEq, Repr

/-- EG.TBL n for n in 0..39 (R103, R143). -/
def Instr.egTbl (n : Fin 40) (value : Byte) : Instr :=
  match n.val with
  | 0 => .egTbl0 value
  | 1 => .egTbl1 value
  | 2 => .egTbl2 value
  | 3 => .egTbl3 value
  | 4 => .egTbl4 value
  | 5 => .egTbl5 value
  | 6 => .egTbl6 value
  | 7 => .egTbl7 value
  | 8 => .egTbl8 value
  | 9 => .egTbl9 value
  | 10 => .egTbl10 value
  | 11 => .egTbl11 value
  | 12 => .egTbl12 value
  | 13 => .egTbl13 value
  | 14 => .egTbl14 value
  | 15 => .egTbl15 value
  | 16 => .egTbl16 value
  | 17 => .egTbl17 value
  | 18 => .egTbl18 value
  | 19 => .egTbl19 value
  | 20 => .egTbl20 value
  | 21 => .egTbl21 value
  | 22 => .egTbl22 value
  | 23 => .egTbl23 value
  | 24 => .egTbl24 value
  | 25 => .egTbl25 value
  | 26 => .egTbl26 value
  | 27 => .egTbl27 value
  | 28 => .egTbl28 value
  | 29 => .egTbl29 value
  | 30 => .egTbl30 value
  | 31 => .egTbl31 value
  | 32 => .egTbl32 value
  | 33 => .egTbl33 value
  | 34 => .egTbl34 value
  | 35 => .egTbl35 value
  | 36 => .egTbl36 value
  | 37 => .egTbl37 value
  | 38 => .egTbl38 value
  | _ => .egTbl39 value

/-- CH.FEG k for k in 0..9 (R104, R150). -/
def Instr.chFeg (k : Fin 10) (value : Byte) : Instr :=
  match k.val with
  | 0 => .chFeg0 value
  | 1 => .chFeg1 value
  | 2 => .chFeg2 value
  | 3 => .chFeg3 value
  | 4 => .chFeg4 value
  | 5 => .chFeg5 value
  | 6 => .chFeg6 value
  | 7 => .chFeg7 value
  | 8 => .chFeg8 value
  | _ => .chFeg9 value

/-- The POKEs to unassigned addresses and to the channel-block pad (R111, R155), each with the address poked and the
byte written. -/
def Instr.ignoredPoke : Instr → Option (Reg16 × Byte)
  | .gCtrl _ => none
  | .gChsel _ => none
  | .gEgselLo _ => none
  | .gEgselHi _ => none
  | .gWptrLo _ => none
  | .gWptrHi _ => none
  | .gWdata _ => none
  | .egCtrl _ => none
  | .egMul _ => none
  | .egHold _ => none
  | .egStride _ => none
  | .egTbl0 _ => none
  | .egTbl1 _ => none
  | .egTbl2 _ => none
  | .egTbl3 _ => none
  | .egTbl4 _ => none
  | .egTbl5 _ => none
  | .egTbl6 _ => none
  | .egTbl7 _ => none
  | .egTbl8 _ => none
  | .egTbl9 _ => none
  | .egTbl10 _ => none
  | .egTbl11 _ => none
  | .egTbl12 _ => none
  | .egTbl13 _ => none
  | .egTbl14 _ => none
  | .egTbl15 _ => none
  | .egTbl16 _ => none
  | .egTbl17 _ => none
  | .egTbl18 _ => none
  | .egTbl19 _ => none
  | .egTbl20 _ => none
  | .egTbl21 _ => none
  | .egTbl22 _ => none
  | .egTbl23 _ => none
  | .egTbl24 _ => none
  | .egTbl25 _ => none
  | .egTbl26 _ => none
  | .egTbl27 _ => none
  | .egTbl28 _ => none
  | .egTbl29 _ => none
  | .egTbl30 _ => none
  | .egTbl31 _ => none
  | .egTbl32 _ => none
  | .egTbl33 _ => none
  | .egTbl34 _ => none
  | .egTbl35 _ => none
  | .egTbl36 _ => none
  | .egTbl37 _ => none
  | .egTbl38 _ => none
  | .egTbl39 _ => none
  | .chCtrl _ => none
  | .chVolL _ => none
  | .chVolR _ => none
  | .chAccmax _ => none
  | .chAeg _ => none
  | .chFeg0 _ => none
  | .chFeg1 _ => none
  | .chFeg2 _ => none
  | .chFeg3 _ => none
  | .chFeg4 _ => none
  | .chFeg5 _ => none
  | .chFeg6 _ => none
  | .chFeg7 _ => none
  | .chFeg8 _ => none
  | .chFeg9 _ => none
  | .chLoopsLo _ => none
  | .chLoopsHi _ => none
  | .chLoopeLo _ => none
  | .chLoopeHi _ => none
  | .ignored0007 value => some (0x0007, value)
  | .ignored0008 register value => some (register, value)
  | .ignored0010 register value => some (register, value)
  | .ignored0020 register value => some (register, value)
  | .ignored006C register value => some (register, value)
  | .ignored0070 register value => some (register, value)
  | .ignored008F value => some (0x008F, value)
  | .ignored0094 register value => some (register, value)
  | .ignored0098 register value => some (register, value)
  | .ignored00A0 register value => some (register, value)
  | .ignored00C0 register value => some (register, value)
  | .ignored0100 register value => some (register, value)
  | .ignored0200 register value => some (register, value)
  | .ignored0400 register value => some (register, value)
  | .ignored0800 register value => some (register, value)
  | .ignored1000 register value => some (register, value)
  | .ignored2000 register value => some (register, value)
  | .ignored4000 register value => some (register, value)
  | .ignored8000 register value => some (register, value)
  | .init => none
  | .destroy => none
  | .render _ => none
  | .frame => none
  | .chRender _ _ => none
  | .egRender _ _ => none
  | .stageProcess _ _ _ _ => none
  | .lut _ => none

end Sys2Proof
end

