-- ==== Sys2Proof/Config.lean ====
section
/-! DEFINITION. The parameters of the hardware (00_scope.md R5) and the values the spec leaves open. -/

namespace Sys2Proof.Config

/-- N_EG of R5. -/
abbrev nEg : Nat := 16

/-- N_CH of R5. -/
abbrev nCh : Nat := 8

/-- TABLE_LEN of R5. -/
abbrev tableLen : Nat := 40

/-- N_FEG of R5. -/
abbrev nFeg : Nat := 10

/-- N_STAGE of R5. -/
abbrev nStage : Nat := 2

/-- N_COEFF of R5. -/
abbrev nCoeff : Nat := 5

/-- MEM_SIZE of R5 at its default (D1, U11). DESIGN CHOICE (log 2): the spec allows other powers of two. -/
abbrev memSize : Nat := 32768

/-- What a cell of sample memory that nothing has written reads as: the reset contents (R22, R39). -/
def memDefault : Byte := 0

/-- EXP_LUT, the open parameter of R5, R27, R205 and D10: any total function from the 8-bit levels to the
integers. No body, so no proof can see a value of it (log 1). -/
opaque expLut : Byte → Int

/-- The negation of a delay entry outside [-32767, 32767], which is -32768 alone. The spec gives it no value
(R237, U4) and no reachable state holds one. A FREE VALUE (log 5). -/
opaque negOutOfRange : Sample → Sample

end Sys2Proof.Config
end

