-- ==== Sys2Proof/WellFormed.lean ====
section
/-! DEFINITION. The checks on an instruction's operands: an ignored block's register lies in the block (R111, the ranges of
spec/opcode_table.json), and the input of STAGE.PROCESS lies in [-32767, 32767] (R230, U4). -/

namespace Sys2Proof

/-- The register address lies in `lo..hi`. -/
def inBlock (lo hi : Nat) (register : Reg16) : Bool :=
  decide (lo ≤ register.toNat) && decide (register.toNat ≤ hi)

/-- The i16 value lies in [-32767, 32767]: it is not -32768 (R8, R230). -/
def inSatRange (v : Sample) : Bool := v != 0x8000

/-- Every operand is one the spec gives the operation. -/
def Instr.wellFormed : Instr → Bool
  | .gCtrl _ => true
  | .gChsel _ => true
  | .gEgselLo _ => true
  | .gEgselHi _ => true
  | .gWptrLo _ => true
  | .gWptrHi _ => true
  | .gWdata _ => true
  | .egCtrl _ => true
  | .egMul _ => true
  | .egHold _ => true
  | .egStride _ => true
  | .egTbl0 _ => true
  | .egTbl1 _ => true
  | .egTbl2 _ => true
  | .egTbl3 _ => true
  | .egTbl4 _ => true
  | .egTbl5 _ => true
  | .egTbl6 _ => true
  | .egTbl7 _ => true
  | .egTbl8 _ => true
  | .egTbl9 _ => true
  | .egTbl10 _ => true
  | .egTbl11 _ => true
  | .egTbl12 _ => true
  | .egTbl13 _ => true
  | .egTbl14 _ => true
  | .egTbl15 _ => true
  | .egTbl16 _ => true
  | .egTbl17 _ => true
  | .egTbl18 _ => true
  | .egTbl19 _ => true
  | .egTbl20 _ => true
  | .egTbl21 _ => true
  | .egTbl22 _ => true
  | .egTbl23 _ => true
  | .egTbl24 _ => true
  | .egTbl25 _ => true
  | .egTbl26 _ => true
  | .egTbl27 _ => true
  | .egTbl28 _ => true
  | .egTbl29 _ => true
  | .egTbl30 _ => true
  | .egTbl31 _ => true
  | .egTbl32 _ => true
  | .egTbl33 _ => true
  | .egTbl34 _ => true
  | .egTbl35 _ => true
  | .egTbl36 _ => true
  | .egTbl37 _ => true
  | .egTbl38 _ => true
  | .egTbl39 _ => true
  | .chCtrl _ => true
  | .chVolL _ => true
  | .chVolR _ => true
  | .chAccmax _ => true
  | .chAeg _ => true
  | .chFeg0 _ => true
  | .chFeg1 _ => true
  | .chFeg2 _ => true
  | .chFeg3 _ => true
  | .chFeg4 _ => true
  | .chFeg5 _ => true
  | .chFeg6 _ => true
  | .chFeg7 _ => true
  | .chFeg8 _ => true
  | .chFeg9 _ => true
  | .chLoopsLo _ => true
  | .chLoopsHi _ => true
  | .chLoopeLo _ => true
  | .chLoopeHi _ => true
  | .ignored0007 _ => true
  | .ignored0008 register _ => inBlock 0x0008 0x000F register
  | .ignored0010 register _ => inBlock 0x0010 0x001F register
  | .ignored0020 register _ => inBlock 0x0020 0x003F register
  | .ignored006C register _ => inBlock 0x006C 0x006F register
  | .ignored0070 register _ => inBlock 0x0070 0x007F register
  | .ignored008F _ => true
  | .ignored0094 register _ => inBlock 0x0094 0x0097 register
  | .ignored0098 register _ => inBlock 0x0098 0x009F register
  | .ignored00A0 register _ => inBlock 0x00A0 0x00BF register
  | .ignored00C0 register _ => inBlock 0x00C0 0x00FF register
  | .ignored0100 register _ => inBlock 0x0100 0x01FF register
  | .ignored0200 register _ => inBlock 0x0200 0x03FF register
  | .ignored0400 register _ => inBlock 0x0400 0x07FF register
  | .ignored0800 register _ => inBlock 0x0800 0x0FFF register
  | .ignored1000 register _ => inBlock 0x1000 0x1FFF register
  | .ignored2000 register _ => inBlock 0x2000 0x3FFF register
  | .ignored4000 register _ => inBlock 0x4000 0x7FFF register
  | .ignored8000 register _ => inBlock 0x8000 0xFFFF register
  | .init => true
  | .destroy => true
  | .render _ => true
  | .frame => true
  | .chRender _ _ => true
  | .egRender _ _ => true
  | .stageProcess _ _ input _ => inSatRange input
  | .lut _ => true

end Sys2Proof
end

