-- ==== Sys2Proof/Decode.lean ====
section
/-! DEFINITION. The address decode of a POKE (30_encoding.md R100 to R104, R111), total on every transaction, and the
encoder written from the same tables. -/

namespace Sys2Proof

/-- First address of the global block (R101; decision D3). -/
def globalBase : Nat := 0x0000

/-- First address of the EG broadcast block (R101; decision D3). -/
def egBase : Nat := 0x0040

/-- First address of the channel broadcast block (R101; decision D3). -/
def chBase : Nat := 0x0080

/-- The register address of a POKE word: bits 23:8 (R100). -/
def pokeRegister (word : BitVec 24) : Reg16 := word.extractLsb' 8 16

/-- The value of a POKE word: bits 7:0 (R100). -/
def pokeValue (word : BitVec 24) : Byte := word.extractLsb' 0 8

/-- The POKE word of a register address and a value (R100). -/
def pokeWord (register : Reg16) (value : Byte) : BitVec 24 := register ++ value

/-- The global block, sub-register g (R102). -/
def decodeGlobal (g : Nat) (value : Byte) : Except DecodeReject Instr :=
  match g with
  | 0 => .ok (.gCtrl value)
  | 1 => .ok (.gChsel value)
  | 2 => .ok (.gEgselLo value)
  | 3 => .ok (.gEgselHi value)
  | 4 => .ok (.gWptrLo value)
  | 5 => .ok (.gWptrHi value)
  | 6 => .ok (.gWdata value)
  | _ => .error .noSubRegister

/-- The EG broadcast block, sub-register index j (R103). -/
def decodeEg (j : Nat) (value : Byte) : Except DecodeReject Instr :=
  match j with
  | 0 => .ok (.egCtrl value)
  | 1 => .ok (.egMul value)
  | 2 => .ok (.egHold value)
  | 3 => .ok (.egStride value)
  | 4 => .ok (.egTbl0 value)
  | 5 => .ok (.egTbl1 value)
  | 6 => .ok (.egTbl2 value)
  | 7 => .ok (.egTbl3 value)
  | 8 => .ok (.egTbl4 value)
  | 9 => .ok (.egTbl5 value)
  | 10 => .ok (.egTbl6 value)
  | 11 => .ok (.egTbl7 value)
  | 12 => .ok (.egTbl8 value)
  | 13 => .ok (.egTbl9 value)
  | 14 => .ok (.egTbl10 value)
  | 15 => .ok (.egTbl11 value)
  | 16 => .ok (.egTbl12 value)
  | 17 => .ok (.egTbl13 value)
  | 18 => .ok (.egTbl14 value)
  | 19 => .ok (.egTbl15 value)
  | 20 => .ok (.egTbl16 value)
  | 21 => .ok (.egTbl17 value)
  | 22 => .ok (.egTbl18 value)
  | 23 => .ok (.egTbl19 value)
  | 24 => .ok (.egTbl20 value)
  | 25 => .ok (.egTbl21 value)
  | 26 => .ok (.egTbl22 value)
  | 27 => .ok (.egTbl23 value)
  | 28 => .ok (.egTbl24 value)
  | 29 => .ok (.egTbl25 value)
  | 30 => .ok (.egTbl26 value)
  | 31 => .ok (.egTbl27 value)
  | 32 => .ok (.egTbl28 value)
  | 33 => .ok (.egTbl29 value)
  | 34 => .ok (.egTbl30 value)
  | 35 => .ok (.egTbl31 value)
  | 36 => .ok (.egTbl32 value)
  | 37 => .ok (.egTbl33 value)
  | 38 => .ok (.egTbl34 value)
  | 39 => .ok (.egTbl35 value)
  | 40 => .ok (.egTbl36 value)
  | 41 => .ok (.egTbl37 value)
  | 42 => .ok (.egTbl38 value)
  | 43 => .ok (.egTbl39 value)
  | _ => .error .noSubRegister

/-- The channel broadcast block, sub-register index j; j = 15 is the unassigned pad (R104). -/
def decodeCh (j : Nat) (value : Byte) : Except DecodeReject Instr :=
  match j with
  | 0 => .ok (.chCtrl value)
  | 1 => .ok (.chVolL value)
  | 2 => .ok (.chVolR value)
  | 3 => .ok (.chAccmax value)
  | 4 => .ok (.chAeg value)
  | 5 => .ok (.chFeg0 value)
  | 6 => .ok (.chFeg1 value)
  | 7 => .ok (.chFeg2 value)
  | 8 => .ok (.chFeg3 value)
  | 9 => .ok (.chFeg4 value)
  | 10 => .ok (.chFeg5 value)
  | 11 => .ok (.chFeg6 value)
  | 12 => .ok (.chFeg7 value)
  | 13 => .ok (.chFeg8 value)
  | 14 => .ok (.chFeg9 value)
  | 15 => .ok (.ignored008F value)
  | 16 => .ok (.chLoopsLo value)
  | 17 => .ok (.chLoopsHi value)
  | 18 => .ok (.chLoopeLo value)
  | 19 => .ok (.chLoopeHi value)
  | _ => .error .noSubRegister

/-- The unassigned addresses (R111), in the blocks of spec/opcode_table.json: each test is the end of a block, in
ascending order. -/
def decodeUnassigned (register : Reg16) (value : Byte) : Instr :=
  if register.toNat ≤ 0x0007 then .ignored0007 value
  else if register.toNat ≤ 0x000F then .ignored0008 register value
  else if register.toNat ≤ 0x001F then .ignored0010 register value
  else if register.toNat ≤ 0x003F then .ignored0020 register value
  else if register.toNat ≤ 0x006F then .ignored006C register value
  else if register.toNat ≤ 0x007F then .ignored0070 register value
  else if register.toNat ≤ 0x0097 then .ignored0094 register value
  else if register.toNat ≤ 0x009F then .ignored0098 register value
  else if register.toNat ≤ 0x00BF then .ignored00A0 register value
  else if register.toNat ≤ 0x00FF then .ignored00C0 register value
  else if register.toNat ≤ 0x01FF then .ignored0100 register value
  else if register.toNat ≤ 0x03FF then .ignored0200 register value
  else if register.toNat ≤ 0x07FF then .ignored0400 register value
  else if register.toNat ≤ 0x0FFF then .ignored0800 register value
  else if register.toNat ≤ 0x1FFF then .ignored1000 register value
  else if register.toNat ≤ 0x3FFF then .ignored2000 register value
  else if register.toNat ≤ 0x7FFF then .ignored4000 register value
  else .ignored8000 register value

/-- The address decode of R101: four cases, tested in this order. -/
def decodePoke (register : Reg16) (value : Byte) : Except DecodeReject Instr :=
  let a := register.toNat
  if globalBase ≤ a ∧ a ≤ globalBase + 6 then decodeGlobal (a - globalBase) value
  else if egBase ≤ a ∧ a ≤ egBase + 43 then decodeEg (a - egBase) value
  else if chBase ≤ a ∧ a ≤ chBase + 19 then decodeCh (a - chBase) value
  else .ok (decodeUnassigned register value)

/-- The instruction a transaction of the host stands for. -/
def decode : Transaction → Except DecodeReject Instr
  | .poke word => decodePoke (pokeRegister word) (pokeValue word)
  | .init => .ok .init
  | .destroy => .ok .destroy
  | .render frameCount => .ok (.render frameCount)

/-- A bit string read as one transaction of format P. There is one length and one format (R112): any other string is
rejected by name. -/
def decodeBits (nbits w : Nat) : Except DecodeReject Instr :=
  if nbits = 24 ∧ w < 2 ^ 24 then decode (.poke (BitVec.ofNat 24 w)) else .error .notOneTransaction

/-- The register address and the value of a POKE. The micro-operations and the host operations without an address have
none (R115). -/
def pokeOf : Instr → Option (Reg16 × Byte)
  | .gCtrl value => some (0x0000, value)
  | .gChsel value => some (0x0001, value)
  | .gEgselLo value => some (0x0002, value)
  | .gEgselHi value => some (0x0003, value)
  | .gWptrLo value => some (0x0004, value)
  | .gWptrHi value => some (0x0005, value)
  | .gWdata value => some (0x0006, value)
  | .egCtrl value => some (0x0040, value)
  | .egMul value => some (0x0041, value)
  | .egHold value => some (0x0042, value)
  | .egStride value => some (0x0043, value)
  | .egTbl0 value => some (0x0044, value)
  | .egTbl1 value => some (0x0045, value)
  | .egTbl2 value => some (0x0046, value)
  | .egTbl3 value => some (0x0047, value)
  | .egTbl4 value => some (0x0048, value)
  | .egTbl5 value => some (0x0049, value)
  | .egTbl6 value => some (0x004A, value)
  | .egTbl7 value => some (0x004B, value)
  | .egTbl8 value => some (0x004C, value)
  | .egTbl9 value => some (0x004D, value)
  | .egTbl10 value => some (0x004E, value)
  | .egTbl11 value => some (0x004F, value)
  | .egTbl12 value => some (0x0050, value)
  | .egTbl13 value => some (0x0051, value)
  | .egTbl14 value => some (0x0052, value)
  | .egTbl15 value => some (0x0053, value)
  | .egTbl16 value => some (0x0054, value)
  | .egTbl17 value => some (0x0055, value)
  | .egTbl18 value => some (0x0056, value)
  | .egTbl19 value => some (0x0057, value)
  | .egTbl20 value => some (0x0058, value)
  | .egTbl21 value => some (0x0059, value)
  | .egTbl22 value => some (0x005A, value)
  | .egTbl23 value => some (0x005B, value)
  | .egTbl24 value => some (0x005C, value)
  | .egTbl25 value => some (0x005D, value)
  | .egTbl26 value => some (0x005E, value)
  | .egTbl27 value => some (0x005F, value)
  | .egTbl28 value => some (0x0060, value)
  | .egTbl29 value => some (0x0061, value)
  | .egTbl30 value => some (0x0062, value)
  | .egTbl31 value => some (0x0063, value)
  | .egTbl32 value => some (0x0064, value)
  | .egTbl33 value => some (0x0065, value)
  | .egTbl34 value => some (0x0066, value)
  | .egTbl35 value => some (0x0067, value)
  | .egTbl36 value => some (0x0068, value)
  | .egTbl37 value => some (0x0069, value)
  | .egTbl38 value => some (0x006A, value)
  | .egTbl39 value => some (0x006B, value)
  | .chCtrl value => some (0x0080, value)
  | .chVolL value => some (0x0081, value)
  | .chVolR value => some (0x0082, value)
  | .chAccmax value => some (0x0083, value)
  | .chAeg value => some (0x0084, value)
  | .chFeg0 value => some (0x0085, value)
  | .chFeg1 value => some (0x0086, value)
  | .chFeg2 value => some (0x0087, value)
  | .chFeg3 value => some (0x0088, value)
  | .chFeg4 value => some (0x0089, value)
  | .chFeg5 value => some (0x008A, value)
  | .chFeg6 value => some (0x008B, value)
  | .chFeg7 value => some (0x008C, value)
  | .chFeg8 value => some (0x008D, value)
  | .chFeg9 value => some (0x008E, value)
  | .chLoopsLo value => some (0x0090, value)
  | .chLoopsHi value => some (0x0091, value)
  | .chLoopeLo value => some (0x0092, value)
  | .chLoopeHi value => some (0x0093, value)
  | .ignored0007 value => some (0x0007, value)
  | .ignored0008 register value => some (register, value)
  | .ignored0010 register value => some (register, value)
  | .ignored0020 register value => some (register, value)
  | .ignored006C register value => some (register, value)
  | .ignored0070 register value => some (register, value)
  | .ignored008F value => some (0x008F, value)
  | .ignored0094 register value => some (register, value)
  | .ignored0098 register value => some (register, value)
  | .ignored00A0 register value => some (register, value)
  | .ignored00C0 register value => some (register, value)
  | .ignored0100 register value => some (register, value)
  | .ignored0200 register value => some (register, value)
  | .ignored0400 register value => some (register, value)
  | .ignored0800 register value => some (register, value)
  | .ignored1000 register value => some (register, value)
  | .ignored2000 register value => some (register, value)
  | .ignored4000 register value => some (register, value)
  | .ignored8000 register value => some (register, value)
  | .init => none
  | .destroy => none
  | .render _ => none
  | .frame => none
  | .chRender _ _ => none
  | .egRender _ _ => none
  | .stageProcess _ _ _ _ => none
  | .lut _ => none

/-- The transaction of an instruction; a micro-operation has no encoding (R115). -/
def encode (i : Instr) : Option Transaction :=
  match i with
  | .init => some .init
  | .destroy => some .destroy
  | .render frameCount => some (.render frameCount)
  | _ => (pokeOf i).map fun p => .poke (pokeWord p.1 p.2)

/-- The POKE of a table row's word, whose bits the table numbers with the register address in bits 15..0 (its `match` and
`mask` "apply to the 16-bit `register` field alone", R100); the value byte follows in bits 23..16 (log 7). A row of another
length has no such word (R115). -/
def tableTransaction (nbits w : Nat) : Option Transaction :=
  if (nbits = 16 ∨ nbits = 24) ∧ w < 2 ^ nbits then
    some (.poke (pokeWord (BitVec.ofNat 16 (w % 65536)) (BitVec.ofNat 8 (w / 65536))))
  else none

/-- The instruction the decoder reads from a table row's word. -/
def decodeTableWord (nbits w : Nat) : Option Instr :=
  match tableTransaction nbits w with
  | some t => (decode t).toOption
  | none => none

end Sys2Proof
end

