-- ==== Sys2Proof/Machine/State.lean ====
section
/-! DEFINITION. The state of the chip (10_state.md R20 to R32), the model's two ends of the host interface, the reasons a step
stops, and the reset state (R39). -/

namespace Sys2Proof.Machine

/-- The global block `G` (R21). -/
structure Global where
  ctrl  : Byte
  chsel : Byte
  egsel : Reg16
  wptr  : Reg16
  wdata : Byte
  deriving DecidableEq, Repr

/-- Sample memory (R22): the cells that differ from the reset contents, addresses rising. -/
abbrev Memory := List Host.Cell

/-- An envelope generator `EG[e]` (R23 to R26). `multiplier` is read as a signed byte. -/
structure Eg where
  multiplier    : Byte
  holdPoint     : Byte
  stride        : Byte
  table         : Vector Byte 40
  keyReset      : Bool
  keyOn         : Bool
  currentEntry  : BitVec 6
  currentStride : Byte
  stepQueued    : Bool
  deriving DecidableEq, Repr

/-- One 3-entry delay line (R29). -/
structure DelayLine where
  d0 : Sample
  d1 : Sample
  d2 : Sample
  deriving DecidableEq, Repr

/-- A biquad stage `CH[c].ST[s]` (R28, R29): coefficients shared by the sides, one delay line a side. -/
structure Stage where
  coeff : Vector Sample 5
  left  : DelayLine
  right : DelayLine
  deriving DecidableEq, Repr

/-- A channel `CH[c]` (R30 to R33). `volL` and `volR` are read as signed bytes. -/
structure Channel where
  keyReset  : Bool
  volL      : Byte
  volR      : Byte
  accMax    : Byte
  aeg       : EgIndex
  feg       : Vector EgIndex 10
  loopStart : Reg16
  loopEnd   : Reg16
  acc       : Byte
  ptr       : Ptr
  st        : Vector Stage 2
  deriving DecidableEq, Repr

/-- The aggregate of R20. The chip has no state beyond it (R38). -/
structure Chip where
  g   : Global
  mem : Memory
  egs : Vector Eg 16
  chs : Vector Channel 8
  deriving DecidableEq, Repr

/-- One frame's stereo pair (R301, R305). -/
structure StereoFrame where
  l : Sample
  r : Sample
  deriving DecidableEq, Repr

/-- What the last micro-operation returned: LUT an integer (R205), EG.RENDER, STAGE.PROCESS and CH.RENDER an i16 (R200, R230,
R260), FRAME a stereo pair (R301). The model's own (log 4). -/
inductive Returned where
  | nothing
  | gain (g : Int)
  | sample (v : Sample)
  | stereo (f : StereoFrame)
  deriving DecidableEq, Repr

/-- The chip, and the model's own fields for the two ends of its interface: the operations the host has issued and the chip has
not started, oldest first (R12; log 3), the pairs RENDER has emitted, oldest first (R37, R300), and the last
micro-operation's result (log 4). -/
structure State where
  chip  : Chip
  queue : List Transaction
  out   : List StereoFrame
  ret   : Returned
  deriving DecidableEq, Repr

/-- The chip raises no exception: the set of causes is empty (R330). -/
inductive Fault where
  deriving DecidableEq, Repr

/-- Why a step has no meaning. -/
inductive Refusal where
  /-- Raised by `exec` for an instruction without a meaning yet. Safe. No arm raises it. -/
  | notModelled (mnemonic : String)
  /-- Raised by STAGE.PROCESS on input -32768, for which it is not defined: spec/93_implementation_defined.md U4, treatment
  `refuse` (R237; log 6). Safe. CH.RENDER, FRAME and RENDER never raise it. -/
  | stageInputUndefined
  /-- Raised by `step` if the decoder rejected a transaction, which it never does (R111, R332). Safe. -/
  | undecodable
  deriving DecidableEq, Repr

/-- The reset values of the global block (R39). -/
def Global.reset : Global := { ctrl := 0, chsel := 0, egsel := 0, wptr := 0, wdata := 0 }

/-- The reset values of an EG (R39). -/
def Eg.reset : Eg :=
  { multiplier := 0, holdPoint := 0, stride := 0, table := Vector.replicate 40 0, keyReset := false, keyOn := false,
    currentEntry := 0, currentStride := 0, stepQueued := false }

/-- The reset values of a delay line (R39). -/
def DelayLine.reset : DelayLine := { d0 := 0, d1 := 0, d2 := 0 }

/-- The reset values of a stage (R39). -/
def Stage.reset : Stage := { coeff := Vector.replicate 5 0, left := DelayLine.reset, right := DelayLine.reset }

/-- The reset values of a channel (R39). -/
def Channel.reset : Channel :=
  { keyReset := false, volL := 0, volR := 0, accMax := 0, aeg := 0, feg := Vector.replicate 10 0, loopStart := 0,
    loopEnd := 0, acc := 0, ptr := 0, st := Vector.replicate 2 Stage.reset }

/-- The state INIT leaves: every field of R21 to R32 zero (R39). -/
def Chip.reset : Chip :=
  { g := Global.reset, mem := [], egs := Vector.replicate 16 Eg.reset, chs := Vector.replicate 8 Channel.reset }

/-- The machine right after reset (R360): the INIT state of the chip, no operation issued, nothing emitted (log 9). -/
def State.reset : State := { chip := Chip.reset, queue := [], out := [], ret := .nothing }

end Sys2Proof.Machine
end

