-- ==== Sys2Proof/Machine/Flags.lean ====
section
/-! DEFINITION. Every flag of the chip (10_state.md R35) and every rule that sets or clears one. There are no condition codes. -/

namespace Sys2Proof.Machine

/-- EG.CTRL assigns both flags from the byte: bit 0 `key_reset`, bit 1 `key_on`; bits 7:2 are ignored (R105, R139). -/
def Eg.writeCtrl (value : Byte) (g : Eg) : Eg :=
  { g with keyReset := value.getLsbD 0, keyOn := value.getLsbD 1 }

/-- CH.CTRL assigns `key_reset` from bit 0; bits 7:1 are ignored (R106, R145). -/
def Channel.writeCtrl (value : Byte) (ch : Channel) : Channel :=
  { ch with keyReset := value.getLsbD 0 }

/-- Step (b) of a frame marks an EG (R303). -/
def Eg.queueStep (g : Eg) : Eg := { g with stepQueued := true }

/-- Step 2 of EG.RENDER clears `step_queued` whatever branch ran (R202 (c)). -/
def Eg.clearQueued (g : Eg) : Eg := { g with stepQueued := false }

/-- Step 7 of CH.RENDER: `key_reset` is cleared if step 1 read it as set (R267). -/
def Channel.clearKeyReset (kr : Bool) (ch : Channel) : Channel :=
  { ch with keyReset := if kr then false else ch.keyReset }

end Sys2Proof.Machine
end

