-- ==== Sys2Proof/Machine/Operands.lean ====
section
/-! DEFINITION. The arithmetic primitives (00_scope.md R7 to R9, R14) and every operand form (30_encoding.md R108 to R110). -/

namespace Sys2Proof.Machine

/-- The signed reading of a byte (R7, R109). -/
def s8 (b : Byte) : Int := if b.toNat < 128 then (b.toNat : Int) else (b.toNat : Int) - 256

/-- The clamp to [-32767, 32767] (R8). -/
def sat (v : Int) : Int := min 32767 (max (-32767) v)

/-- Division truncating toward zero (R9). -/
def tdiv (a n : Int) : Int := if 0 ≤ a then a / n else -(-a / n)

/-- The 16-bit register that holds the integer `v` (two's complement). -/
def i16 (v : Int) : Sample := BitVec.ofInt 16 v

/-- `wrap16` of R9: the 16-bit signed value congruent to `v` modulo 65536. -/
def wrap16 (v : Int) : Sample := BitVec.ofInt 16 v

/-- An integer narrowed to a 16-bit register with `sat` (R8, R14). -/
def narrow (v : Int) : Sample := i16 (sat v)

/-- A 16-bit register after a POKE to its low-byte address: `R[15:8] ++ value` (R76, R108). -/
def setLo (r : Reg16) (value : Byte) : Reg16 := r.extractLsb' 8 8 ++ value

/-- A 16-bit register after a POKE to its high-byte address: `value ++ R[7:0]` (R76, R108). -/
def setHi (r : Reg16) (value : Byte) : Reg16 := value ++ r.extractLsb' 0 8

/-- An EG index operand: `value[3:0]` (R110). -/
def egIndex (value : Byte) : EgIndex := value.extractLsb' 0 4

/-- The EG an index field names (R33). -/
def egOf (i : EgIndex) : Fin 16 := i.toFin

/-- A loop offset or another 16-bit address as an index into sample memory: `r mod MEM_SIZE` (R72, R84). -/
def memIndex (r : Reg16) : Ptr := BitVec.ofNat 15 (r.toNat % Config.memSize)

/-- The read pointer one position on: `(ptr + 1) mod MEM_SIZE` (R84, R263). -/
def nextPtr (p : Ptr) : Ptr := BitVec.ofNat 15 ((p.toNat + 1) % Config.memSize)

end Sys2Proof.Machine
end

