-- ==== Sys2Proof/Machine/Ops.lean ====
section
/-! DEFINITION. The shared operations over sample memory, the unit banks and the state. The chip takes no exception and returns
from none (60_exceptions.md R330, R335), so there is no such operation here. -/

namespace Sys2Proof.Machine

/-- The byte at a cell index; a cell not listed reads as the reset contents (R22). -/
def readCell : Memory → Nat → Byte
  | [], _ => Config.memDefault
  | cell :: rest, a => if cell.1 = a then cell.2 else readCell rest a

/-- The memory with one cell set, in canonical form: rising addresses, no cell equal to the reset contents. -/
def writeCell : Memory → Nat → Byte → Memory
  | [], a, v => if v = Config.memDefault then [] else [(a, v)]
  | cell :: rest, a, v =>
    if a < cell.1 then (if v = Config.memDefault then cell :: rest else (a, v) :: cell :: rest)
    else if a = cell.1 then (if v = Config.memDefault then rest else (a, v) :: rest)
    else cell :: writeCell rest a v

/-- `MemRead(a, 1)` (R72). -/
def memRead (m : Memory) (a : Nat) : Byte := readCell m (a % Config.memSize)

/-- `MemWrite(a, 1, v)` (R72). -/
def memWrite (m : Memory) (a : Nat) (v : Byte) : Memory := writeCell m (a % Config.memSize) v

/-- The canonical form: addresses strictly rising and below MEM_SIZE, no cell equal to the reset contents. -/
abbrev Memory.wf (m : Memory) : Prop :=
  m.Pairwise (fun x y => x.1 < y.1) ∧ ∀ cell ∈ m, cell.1 < Config.memSize ∧ cell.2 ≠ Config.memDefault

/-- A broadcast over a bank of units: the selected units take the write, the others are untouched (R138, R144, R160). -/
def fanOut {α : Type} {n : Nat} (sel : Fin n → Bool) (f : α → α) (units : Vector α n) : Vector α n :=
  Vector.ofFn fun i => if sel i then f units[i] else units[i]

/-- `EG[e]`. -/
def Chip.eg (c : Chip) (e : Fin 16) : Eg := c.egs[e]

/-- `CH[k]`. -/
def Chip.ch (c : Chip) (k : Fin 8) : Channel := c.chs[k]

/-- The chip with one EG replaced. -/
def Chip.setEg (c : Chip) (e : Fin 16) (g : Eg) : Chip := { c with egs := c.egs.set e g }

/-- The chip with one channel replaced. -/
def Chip.setCh (c : Chip) (k : Fin 8) (x : Channel) : Chip := { c with chs := c.chs.set k x }

/-- The chip with one channel changed by `f`. -/
def Chip.modifyCh (c : Chip) (k : Fin 8) (f : Channel → Channel) : Chip := c.setCh k (f (c.ch k))

/-- The chip with every EG that `sel` picks changed by `f`. -/
def Chip.mapEgs (c : Chip) (sel : Fin 16 → Bool) (f : Eg → Eg) : Chip := { c with egs := fanOut sel f c.egs }

/-- The chip with every channel that `sel` picks changed by `f`. -/
def Chip.mapChs (c : Chip) (sel : Fin 8 → Bool) (f : Channel → Channel) : Chip := { c with chs := fanOut sel f c.chs }

/-- The chip with its global block replaced. -/
def Chip.setG (c : Chip) (g : Global) : Chip := { c with g := g }

/-- The chip with its sample memory replaced. -/
def Chip.setMem (c : Chip) (m : Memory) : Chip := { c with mem := m }

/-- `G.egsel[e] = 1` (R21). -/
def Global.selectsEg (g : Global) (e : Fin 16) : Bool := g.egsel.getLsbD e

/-- `G.chsel[c] = 1` (R21). -/
def Global.selectsCh (g : Global) (c : Fin 8) : Bool := g.chsel.getLsbD c

/-- `CH[c].ST[s]`. -/
def Channel.stage (ch : Channel) (s : Fin 2) : Stage := ch.st[s]

/-- The channel with one stage replaced. -/
def Channel.setStage (ch : Channel) (s : Fin 2) (x : Stage) : Channel := { ch with st := ch.st.set s x }

/-- The delay line of a side (R29). -/
def Stage.delay (x : Stage) : Side → DelayLine
  | .left => x.left
  | .right => x.right

/-- The stage with the delay line of one side replaced; the other is untouched (R234). -/
def Stage.setDelay (x : Stage) (side : Side) (d : DelayLine) : Stage :=
  match side with
  | .left => { x with left := d }
  | .right => { x with right := d }

/-- The state with its chip replaced. -/
def State.setChip (s : State) (c : Chip) : State := { s with chip := c }

/-- The state with frames appended to the output (R300). -/
def State.emit (s : State) (frames : List StereoFrame) : State := { s with out := s.out ++ frames }

/-- The state with a micro-operation's result. -/
def State.setRet (s : State) (r : Returned) : State := { s with ret := r }

/-- The state with its queue of host operations replaced. -/
def State.setQueue (s : State) (q : List Transaction) : State := { s with queue := q }

/-- The outcome of a micro-operation: the chip it leaves and the i16 it returns. -/
def returns (s : State) (p : Chip × Sample) : Host.Outcome State Fault Refusal :=
  .next ((s.setChip p.1).setRet (.sample p.2))

/-- A POKE to the global block: a new global block and nothing else (R130). -/
def globalWrite (f : Global → Global) (s : State) : Host.Outcome State Fault Refusal :=
  .next (s.setChip (s.chip.setG (f s.chip.g)))

/-- A POKE to the EG broadcast block: the write reaches every EG with `G.egsel[e] = 1` (R130, R138). -/
def egBroadcast (f : Eg → Eg) (s : State) : Host.Outcome State Fault Refusal :=
  .next (s.setChip (s.chip.mapEgs s.chip.g.selectsEg f))

/-- A POKE to the channel broadcast block: the write reaches every channel with `G.chsel[c] = 1` (R130, R144). -/
def chBroadcast (f : Channel → Channel) (s : State) : Host.Outcome State Fault Refusal :=
  .next (s.setChip (s.chip.mapChs s.chip.g.selectsCh f))

/-- A POKE to an unassigned address or to the pad (R111, R155). -/
def ignoredWrite (s : State) : Host.Outcome State Fault Refusal := .next s

end Sys2Proof.Machine
end

