-- ==== Sys2Proof/Machine/Biquad.lean ====
section
/-! DEFINITION. The biquad stage (42_biquad_stage.md R230 to R240). -/

namespace Sys2Proof.Machine

/-- The negation of the push (R231). The spec gives -(-32768) no value and no reachable state needs it (R237, U4): it is the
free value of log 5. -/
def negDelay (x : Sample) : Sample := if x = 0x8000 then Config.negOutOfRange x else i16 (-x.toInt)

/-- The push: `d[2] <- -d[1]`, `d[1] <- -d[0]`, `d[0] <- input`, each right side the value before the call (R231). -/
def DelayLine.push (d : DelayLine) (input : Sample) : DelayLine :=
  { d0 := input, d1 := negDelay d.d0, d2 := negDelay d.d1 }

/-- A Q15 term: the exact product divided by 32768 toward zero (R232). -/
def q15Term (x k : Int) : Int := tdiv (x * k) 32768

/-- The intermediate value: three terms added in order with `sat` after each addition (R232). -/
def stageMid (d : DelayLine) (k : Vector Sample 5) : Int :=
  let m0 := sat (0 + q15Term d.d0.toInt k[0].toInt)
  let m1 := sat (m0 + q15Term d.d1.toInt k[1].toInt)
  sat (m1 + q15Term d.d2.toInt k[2].toInt)

/-- `stage_out(m, k3, k4)` of U3: the output half, whose third term is 0 (R233; decision D13). -/
def stageOut (m k3 k4 : Int) : Int :=
  let y0 := sat (0 + q15Term m k3)
  let y1 := sat (y0 + q15Term m k4)
  sat (y1 + 0)

/-- What a stage returns for its delay line after the push (R232, R233). -/
def Stage.outputOf (x : Stage) (d : DelayLine) : Sample :=
  i16 (stageOut (stageMid d x.coeff) x.coeff[3].toInt x.coeff[4].toInt)

/-- A stage after one call on one side, and what it returns (R230). -/
def Stage.process (x : Stage) (input : Sample) (side : Side) : Stage × Sample :=
  let d := (x.delay side).push input
  (x.setDelay side d, x.outputOf d)

/-- STAGE.PROCESS(c, s, input, side) (R230). -/
def stageProcess (c : Fin 8) (k : Fin 2) (input : Sample) (side : Side) (chip : Chip) : Chip × Sample :=
  let p := ((chip.ch c).stage k).process input side
  (chip.setCh c ((chip.ch c).setStage k p.1), p.2)

/-- STAGE.PROCESS. Its domain is [-32767, 32767]; U4 of spec/93_implementation_defined.md says to refuse -32768 (log 6). -/
def execStageProcess (c : Fin 8) (k : Fin 2) (input : Sample) (side : Side) (s : State) :
    Host.Outcome State Fault Refusal :=
  if inSatRange input then returns s (stageProcess c k input side s.chip) else .refused .stageInputUndefined

end Sys2Proof.Machine
end

