-- ==== Sys2Proof/Machine/ChannelBlock.lean ====
section
/-! DEFINITION. POKEs to the channel broadcast block (40_poke_and_host_ops.md R144 to R154): the sub-register write of one
channel, and one meaning for each of the 19 addresses. -/

namespace Sys2Proof.Machine

/-- `CH[c].vol_l <- s8(value)`: the byte is kept and read as signed (R146). -/
def Channel.writeVolL (value : Byte) (ch : Channel) : Channel := { ch with volL := value }

/-- `CH[c].vol_r <- s8(value)` (R147). -/
def Channel.writeVolR (value : Byte) (ch : Channel) : Channel := { ch with volR := value }

/-- `CH[c].acc_max <- value` (R148). -/
def Channel.writeAccMax (value : Byte) (ch : Channel) : Channel := { ch with accMax := value }

/-- `CH[c].aeg <- value[3:0]` (R149). -/
def Channel.writeAeg (value : Byte) (ch : Channel) : Channel := { ch with aeg := egIndex value }

/-- `CH[c].feg[k] <- value[3:0]` (R150). -/
def Channel.writeFeg (k : Fin 10) (value : Byte) (ch : Channel) : Channel :=
  { ch with feg := ch.feg.set k (egIndex value) }

/-- `CH[c].loop_start <- CH[c].loop_start[15:8] ++ value` (R151). -/
def Channel.writeLoopStartLo (value : Byte) (ch : Channel) : Channel := { ch with loopStart := setLo ch.loopStart value }

/-- `CH[c].loop_start <- value ++ CH[c].loop_start[7:0]` (R152). -/
def Channel.writeLoopStartHi (value : Byte) (ch : Channel) : Channel := { ch with loopStart := setHi ch.loopStart value }

/-- `CH[c].loop_end <- CH[c].loop_end[15:8] ++ value` (R153). -/
def Channel.writeLoopEndLo (value : Byte) (ch : Channel) : Channel := { ch with loopEnd := setLo ch.loopEnd value }

/-- `CH[c].loop_end <- value ++ CH[c].loop_end[7:0]` (R154). -/
def Channel.writeLoopEndHi (value : Byte) (ch : Channel) : Channel := { ch with loopEnd := setHi ch.loopEnd value }

/-- CH.CTRL (R145). -/
def execChCtrl (value : Byte) (s : State) : Host.Outcome State Fault Refusal := chBroadcast (Channel.writeCtrl value) s

/-- CH.VOL_L (R146). -/
def execChVolL (value : Byte) (s : State) : Host.Outcome State Fault Refusal := chBroadcast (Channel.writeVolL value) s

/-- CH.VOL_R (R147). -/
def execChVolR (value : Byte) (s : State) : Host.Outcome State Fault Refusal := chBroadcast (Channel.writeVolR value) s

/-- CH.ACCMAX (R148). -/
def execChAccmax (value : Byte) (s : State) : Host.Outcome State Fault Refusal := chBroadcast (Channel.writeAccMax value) s

/-- CH.AEG (R149). -/
def execChAeg (value : Byte) (s : State) : Host.Outcome State Fault Refusal := chBroadcast (Channel.writeAeg value) s

/-- CH.FEG 0 (R150). -/
def execChFeg0 (value : Byte) (s : State) : Host.Outcome State Fault Refusal := chBroadcast (Channel.writeFeg 0 value) s

/-- CH.FEG 1 (R150). -/
def execChFeg1 (value : Byte) (s : State) : Host.Outcome State Fault Refusal := chBroadcast (Channel.writeFeg 1 value) s

/-- CH.FEG 2 (R150). -/
def execChFeg2 (value : Byte) (s : State) : Host.Outcome State Fault Refusal := chBroadcast (Channel.writeFeg 2 value) s

/-- CH.FEG 3 (R150). -/
def execChFeg3 (value : Byte) (s : State) : Host.Outcome State Fault Refusal := chBroadcast (Channel.writeFeg 3 value) s

/-- CH.FEG 4 (R150). -/
def execChFeg4 (value : Byte) (s : State) : Host.Outcome State Fault Refusal := chBroadcast (Channel.writeFeg 4 value) s

/-- CH.FEG 5 (R150). -/
def execChFeg5 (value : Byte) (s : State) : Host.Outcome State Fault Refusal := chBroadcast (Channel.writeFeg 5 value) s

/-- CH.FEG 6 (R150). -/
def execChFeg6 (value : Byte) (s : State) : Host.Outcome State Fault Refusal := chBroadcast (Channel.writeFeg 6 value) s

/-- CH.FEG 7 (R150). -/
def execChFeg7 (value : Byte) (s : State) : Host.Outcome State Fault Refusal := chBroadcast (Channel.writeFeg 7 value) s

/-- CH.FEG 8 (R150). -/
def execChFeg8 (value : Byte) (s : State) : Host.Outcome State Fault Refusal := chBroadcast (Channel.writeFeg 8 value) s

/-- CH.FEG 9 (R150). -/
def execChFeg9 (value : Byte) (s : State) : Host.Outcome State Fault Refusal := chBroadcast (Channel.writeFeg 9 value) s

/-- CH.LOOPS_LO (R151). -/
def execChLoopsLo (value : Byte) (s : State) : Host.Outcome State Fault Refusal := chBroadcast (Channel.writeLoopStartLo value) s

/-- CH.LOOPS_HI (R152). -/
def execChLoopsHi (value : Byte) (s : State) : Host.Outcome State Fault Refusal := chBroadcast (Channel.writeLoopStartHi value) s

/-- CH.LOOPE_LO (R153). -/
def execChLoopeLo (value : Byte) (s : State) : Host.Outcome State Fault Refusal := chBroadcast (Channel.writeLoopEndLo value) s

/-- CH.LOOPE_HI (R154). -/
def execChLoopeHi (value : Byte) (s : State) : Host.Outcome State Fault Refusal := chBroadcast (Channel.writeLoopEndHi value) s

end Sys2Proof.Machine
end

