-- ==== Sys2Proof/Machine/Envelope.lean ====
section
/-! DEFINITION. The envelope generator (41_envelope_generator.md R200 to R212) and the amplitude lookup (R205). -/

namespace Sys2Proof.Machine

/-- Step 1, key-reset: the flag is cleared and the cursor goes to (0, 0); `step_queued` and `key_on` are not touched (R201). -/
def Eg.resetCursor (g : Eg) : Eg :=
  if g.keyReset then { g with keyReset := false, currentEntry := 0, currentStride := 0 } else g

/-- The move of a consumed step: count up to the stride, then advance the entry unless the hold pauses it
(R202 (a), (b), (d)). -/
def Eg.moveCursor (g : Eg) : Eg :=
  if g.currentStride.toNat < g.stride.toNat then { g with currentStride := g.currentStride + 1 }
  else if g.keyOn = false ∨ g.currentEntry.toNat ≠ g.holdPoint.toNat then
    { g with currentEntry := g.currentEntry + 1, currentStride := 0 }
  else g

/-- Step 2, consuming the queued step (R202). -/
def Eg.consumeStep (g : Eg) : Eg :=
  if g.stepQueued = true ∧ g.currentEntry.toNat < 40 then g.moveCursor.clearQueued else g.clearQueued

/-- Steps 1 and 2: what one EG.RENDER call does to its unit (R200). -/
def Eg.advance (g : Eg) : Eg := g.resetCursor.consumeStep

/-- Step 3: the table entry at the cursor, clamped to the last one (R203). -/
def Eg.level (g : Eg) : Byte := g.table[min g.currentEntry.toNat 39]'(by omega)

/-- LUT(level): the entry of the lookup table (R205). -/
def lutGain (lut : Byte → Int) (level : Byte) : Int := lut level

/-- Step 4: the multiplier times the looked-up or raw level, narrowed with `sat` (R204). -/
def Eg.output (lut : Byte → Int) (useExponential : Bool) (g : Eg) : Sample :=
  narrow (s8 g.multiplier * if useExponential then lutGain lut g.level else (g.level.toNat : Int))

/-- EG.RENDER(e, use_exponential) (R200), for a lookup table `lut`. -/
def egRender (lut : Byte → Int) (e : Fin 16) (useExponential : Bool) (c : Chip) : Chip × Sample :=
  (c.setEg e (c.eg e).advance, (c.eg e).advance.output lut useExponential)

/-- EG.RENDER (R200). -/
def execEgRender (e : Fin 16) (useExponential : Bool) (s : State) : Host.Outcome State Fault Refusal :=
  returns s (egRender Config.expLut e useExponential s.chip)

/-- LUT: no chip state is read or written (R205). -/
def execLut (level : Byte) (s : State) : Host.Outcome State Fault Refusal :=
  .next (s.setRet (.gain (lutGain Config.expLut level)))

end Sys2Proof.Machine
end

