-- ==== Sys2Proof/Machine/ChannelRender.lean ====
section
/-! DEFINITION. The channel (43_channel.md R260 to R272). -/

namespace Sys2Proof.Machine

/-- Step 1: the key-reset or loop-exhaustion check; both offsets are reduced modulo MEM_SIZE and "past" is strict (R261). -/
def Channel.checkLoop (ch : Channel) : Channel :=
  if ch.keyReset = true ∨ (memIndex ch.loopEnd).toNat < ch.ptr.toNat then { ch with ptr := memIndex ch.loopStart } else ch

/-- The volume of a side (R262). -/
def Channel.volume (ch : Channel) : Side → Byte
  | .left => ch.volL
  | .right => ch.volR

/-- Step 2: fetch, widen by 256 and scale by the side's volume, narrowed with `sat` (R262). -/
def Channel.fetchScale (m : Memory) (side : Side) (ch : Channel) : Sample :=
  narrow (s8 (memRead m ch.ptr.toNat) * 256 * s8 (ch.volume side))

/-- Step 3: on the Right call, advance the pointer and reload the accumulator when it is 0, else count down (R263). -/
def Channel.stepRate (side : Side) (ch : Channel) : Channel :=
  match side with
  | .left => ch
  | .right =>
    if ch.acc = 0 then { ch with ptr := nextPtr ch.ptr, acc := ch.accMax } else { ch with acc := ch.acc - 1 }

/-- The indices of the ten filter-coefficient EGs, in order (R264). -/
def fegOrder : List (Fin 10) := [0, 1, 2, 3, 4, 5, 6, 7, 8, 9]

/-- One coefficient EG rendered in linear mode: `v[k] <- EG.RENDER(feg[k], false)` (R264). -/
def renderFeg (lut : Byte → Int) (feg : Vector EgIndex 10) (p : Chip × Vector Sample 10) (k : Fin 10) :
    Chip × Vector Sample 10 :=
  let q := egRender lut (egOf feg[k]) false p.1
  (q.1, p.2.set k q.2)

/-- Step 4, the ten EG.RENDER calls in the order k = 0..9 (R264). -/
def renderFegs (lut : Byte → Int) (feg : Vector EgIndex 10) (c : Chip) : Chip × Vector Sample 10 :=
  fegOrder.foldl (renderFeg lut feg) (c, Vector.replicate 10 0)

/-- Step 4, the load: stage 0 takes v[0..4], stage 1 takes v[5..9] (R264). -/
def Channel.loadCoeffs (v : Vector Sample 10) (ch : Channel) : Channel :=
  let c0 : Vector Sample 5 := #v[v[0], v[1], v[2], v[3], v[4]]
  let c1 : Vector Sample 5 := #v[v[5], v[6], v[7], v[8], v[9]]
  (ch.setStage 0 { ch.stage 0 with coeff := c0 }).setStage 1 { ch.stage 1 with coeff := c1 }

/-- Step 6: descale by 256 toward zero, then multiply by the amplitude and narrow with `sat` (R266). -/
def channelOut (y1 a : Sample) : Sample := narrow (tdiv y1.toInt 256 * a.toInt)

/-- CH.RENDER(c, side) (R260), for a lookup table `lut`: its seven steps in order. -/
def chRender (lut : Byte → Int) (c : Fin 8) (side : Side) (chip : Chip) : Chip × Sample :=
  let kr := (chip.ch c).keyReset
  let chip1 := chip.modifyCh c Channel.checkLoop
  let x := (chip1.ch c).fetchScale chip1.mem side
  let chip3 := chip1.modifyCh c (Channel.stepRate side)
  let p4 := renderFegs lut (chip3.ch c).feg chip3
  let chip4 := p4.1.modifyCh c (Channel.loadCoeffs p4.2)
  let p5 := stageProcess c 0 x side chip4
  let p6 := stageProcess c 1 p5.2 side p5.1
  let p7 := egRender lut (egOf (p6.1.ch c).aeg) true p6.1
  (p7.1.modifyCh c (Channel.clearKeyReset kr), channelOut p6.2 p7.2)

/-- CH.RENDER (R260). -/
def execChRender (c : Fin 8) (side : Side) (s : State) : Host.Outcome State Fault Refusal :=
  returns s (chRender Config.expLut c side s.chip)

end Sys2Proof.Machine
end

