-- ==== Sys2Proof/Machine/ChipRender.lean ====
section
/-! DEFINITION. The frame with its EG step arbitration, the output sum, and RENDER (44_chip_render.md R300 to R312). -/

namespace Sys2Proof.Machine

/-- The channels in the order a frame visits them (R304). -/
def chOrder : List (Fin 8) := [0, 1, 2, 3, 4, 5, 6, 7]

/-- The EG references of a channel: its amplitude EG and its ten filter-coefficient EGs (R302). -/
def Channel.refs (ch : Channel) : List EgIndex := ch.aeg :: ch.feg.toList

/-- A membership mask with one more bit set: `mask[i] <- 1` (R301). -/
def addRef (mask : BitVec 16) (i : EgIndex) : BitVec 16 := mask ||| (1#16 <<< i.toNat)

/-- Step (a), the pre-scan: the 16-bit mask of the EGs any channel references (R302). -/
def refMask (c : Chip) : BitVec 16 := (chOrder.flatMap fun k => (c.ch k).refs).foldl addRef 0

/-- Step (b): every EG in the mask has its step queued (R303). -/
def Chip.markReferenced (c : Chip) : Chip := c.mapEgs (fun e => (refMask c).getLsbD e) Eg.queueStep

/-- One channel of step (c): the Left call, the Right call, and the two totals (R304). -/
def addChannel (lut : Byte → Int) (p : Chip × StereoFrame) (c : Fin 8) : Chip × StereoFrame :=
  let l := chRender lut c .left p.1
  let r := chRender lut c .right l.1
  (r.1, { l := wrap16 (p.2.l.toInt + l.2.toInt), r := wrap16 (p.2.r.toInt + r.2.toInt) })

/-- FRAME() (R301), for a lookup table `lut`. -/
def frame (lut : Byte → Int) (c : Chip) : Chip × StereoFrame :=
  chOrder.foldl (addChannel lut) (c.markReferenced, { l := 0, r := 0 })

/-- `n` frames, one after another, with their pairs in order (R300). -/
def renderFrames (lut : Byte → Int) : Nat → Chip → Chip × List StereoFrame
  | 0, c => (c, [])
  | n + 1, c =>
    let p := frame lut c
    let q := renderFrames lut n p.1
    (q.1, p.2 :: q.2)

/-- FRAME (R301): the pair is the frame's result and is not kept in the chip (R305). -/
def execFrame (s : State) : Host.Outcome State Fault Refusal :=
  let p := frame Config.expLut s.chip
  .next ((s.setChip p.1).setRet (.stereo p.2))

/-- RENDER(frame_count) (R300): the pairs are emitted in order. -/
def execRender (frameCount : BitVec 32) (s : State) : Host.Outcome State Fault Refusal :=
  let p := renderFrames Config.expLut frameCount.toNat s.chip
  .next ((s.setChip p.1).emit p.2)

/-- The caller's buffer: the pairs interleaved, L at the even index and R at the following odd index (R300, R305). -/
def interleave : List StereoFrame → List Sample
  | [] => []
  | f :: rest => f.l :: f.r :: interleave rest

end Sys2Proof.Machine
end

