-- ==== Sys2Proof/Machine/EgBlock.lean ====
section
/-! DEFINITION. POKEs to the EG broadcast block (40_poke_and_host_ops.md R138 to R143): the sub-register write of one EG, and one
meaning for each of the 44 addresses. -/

namespace Sys2Proof.Machine

/-- `EG[e].multiplier <- s8(value)`: the byte is kept and read as signed (R140). -/
def Eg.writeMul (value : Byte) (g : Eg) : Eg := { g with multiplier := value }

/-- `EG[e].hold_point <- value` (R141). -/
def Eg.writeHold (value : Byte) (g : Eg) : Eg := { g with holdPoint := value }

/-- `EG[e].stride <- value` (R142). -/
def Eg.writeStride (value : Byte) (g : Eg) : Eg := { g with stride := value }

/-- `EG[e].table[n] <- value` (R143). -/
def Eg.writeTable (n : Fin 40) (value : Byte) (g : Eg) : Eg := { g with table := g.table.set n value }

/-- EG.CTRL (R139). -/
def execEgCtrl (value : Byte) (s : State) : Host.Outcome State Fault Refusal := egBroadcast (Eg.writeCtrl value) s

/-- EG.MUL (R140). -/
def execEgMul (value : Byte) (s : State) : Host.Outcome State Fault Refusal := egBroadcast (Eg.writeMul value) s

/-- EG.HOLD (R141). -/
def execEgHold (value : Byte) (s : State) : Host.Outcome State Fault Refusal := egBroadcast (Eg.writeHold value) s

/-- EG.STRIDE (R142). -/
def execEgStride (value : Byte) (s : State) : Host.Outcome State Fault Refusal := egBroadcast (Eg.writeStride value) s

/-! EG.TBL n for n in 0..39, address 0x0044 + n (R103, R143). -/

/-- EG.TBL 0 (R143). -/
def execEgTbl0 (value : Byte) (s : State) : Host.Outcome State Fault Refusal := egBroadcast (Eg.writeTable 0 value) s

/-- EG.TBL 1 (R143). -/
def execEgTbl1 (value : Byte) (s : State) : Host.Outcome State Fault Refusal := egBroadcast (Eg.writeTable 1 value) s

/-- EG.TBL 2 (R143). -/
def execEgTbl2 (value : Byte) (s : State) : Host.Outcome State Fault Refusal := egBroadcast (Eg.writeTable 2 value) s

/-- EG.TBL 3 (R143). -/
def execEgTbl3 (value : Byte) (s : State) : Host.Outcome State Fault Refusal := egBroadcast (Eg.writeTable 3 value) s

/-- EG.TBL 4 (R143). -/
def execEgTbl4 (value : Byte) (s : State) : Host.Outcome State Fault Refusal := egBroadcast (Eg.writeTable 4 value) s

/-- EG.TBL 5 (R143). -/
def execEgTbl5 (value : Byte) (s : State) : Host.Outcome State Fault Refusal := egBroadcast (Eg.writeTable 5 value) s

/-- EG.TBL 6 (R143). -/
def execEgTbl6 (value : Byte) (s : State) : Host.Outcome State Fault Refusal := egBroadcast (Eg.writeTable 6 value) s

/-- EG.TBL 7 (R143). -/
def execEgTbl7 (value : Byte) (s : State) : Host.Outcome State Fault Refusal := egBroadcast (Eg.writeTable 7 value) s

/-- EG.TBL 8 (R143). -/
def execEgTbl8 (value : Byte) (s : State) : Host.Outcome State Fault Refusal := egBroadcast (Eg.writeTable 8 value) s

/-- EG.TBL 9 (R143). -/
def execEgTbl9 (value : Byte) (s : State) : Host.Outcome State Fault Refusal := egBroadcast (Eg.writeTable 9 value) s

/-- EG.TBL 10 (R143). -/
def execEgTbl10 (value : Byte) (s : State) : Host.Outcome State Fault Refusal := egBroadcast (Eg.writeTable 10 value) s

/-- EG.TBL 11 (R143). -/
def execEgTbl11 (value : Byte) (s : State) : Host.Outcome State Fault Refusal := egBroadcast (Eg.writeTable 11 value) s

/-- EG.TBL 12 (R143). -/
def execEgTbl12 (value : Byte) (s : State) : Host.Outcome State Fault Refusal := egBroadcast (Eg.writeTable 12 value) s

/-- EG.TBL 13 (R143). -/
def execEgTbl13 (value : Byte) (s : State) : Host.Outcome State Fault Refusal := egBroadcast (Eg.writeTable 13 value) s

/-- EG.TBL 14 (R143). -/
def execEgTbl14 (value : Byte) (s : State) : Host.Outcome State Fault Refusal := egBroadcast (Eg.writeTable 14 value) s

/-- EG.TBL 15 (R143). -/
def execEgTbl15 (value : Byte) (s : State) : Host.Outcome State Fault Refusal := egBroadcast (Eg.writeTable 15 value) s

/-- EG.TBL 16 (R143). -/
def execEgTbl16 (value : Byte) (s : State) : Host.Outcome State Fault Refusal := egBroadcast (Eg.writeTable 16 value) s

/-- EG.TBL 17 (R143). -/
def execEgTbl17 (value : Byte) (s : State) : Host.Outcome State Fault Refusal := egBroadcast (Eg.writeTable 17 value) s

/-- EG.TBL 18 (R143). -/
def execEgTbl18 (value : Byte) (s : State) : Host.Outcome State Fault Refusal := egBroadcast (Eg.writeTable 18 value) s

/-- EG.TBL 19 (R143). -/
def execEgTbl19 (value : Byte) (s : State) : Host.Outcome State Fault Refusal := egBroadcast (Eg.writeTable 19 value) s

/-- EG.TBL 20 (R143). -/
def execEgTbl20 (value : Byte) (s : State) : Host.Outcome State Fault Refusal := egBroadcast (Eg.writeTable 20 value) s

/-- EG.TBL 21 (R143). -/
def execEgTbl21 (value : Byte) (s : State) : Host.Outcome State Fault Refusal := egBroadcast (Eg.writeTable 21 value) s

/-- EG.TBL 22 (R143). -/
def execEgTbl22 (value : Byte) (s : State) : Host.Outcome State Fault Refusal := egBroadcast (Eg.writeTable 22 value) s

/-- EG.TBL 23 (R143). -/
def execEgTbl23 (value : Byte) (s : State) : Host.Outcome State Fault Refusal := egBroadcast (Eg.writeTable 23 value) s

/-- EG.TBL 24 (R143). -/
def execEgTbl24 (value : Byte) (s : State) : Host.Outcome State Fault Refusal := egBroadcast (Eg.writeTable 24 value) s

/-- EG.TBL 25 (R143). -/
def execEgTbl25 (value : Byte) (s : State) : Host.Outcome State Fault Refusal := egBroadcast (Eg.writeTable 25 value) s

/-- EG.TBL 26 (R143). -/
def execEgTbl26 (value : Byte) (s : State) : Host.Outcome State Fault Refusal := egBroadcast (Eg.writeTable 26 value) s

/-- EG.TBL 27 (R143). -/
def execEgTbl27 (value : Byte) (s : State) : Host.Outcome State Fault Refusal := egBroadcast (Eg.writeTable 27 value) s

/-- EG.TBL 28 (R143). -/
def execEgTbl28 (value : Byte) (s : State) : Host.Outcome State Fault Refusal := egBroadcast (Eg.writeTable 28 value) s

/-- EG.TBL 29 (R143). -/
def execEgTbl29 (value : Byte) (s : State) : Host.Outcome State Fault Refusal := egBroadcast (Eg.writeTable 29 value) s

/-- EG.TBL 30 (R143). -/
def execEgTbl30 (value : Byte) (s : State) : Host.Outcome State Fault Refusal := egBroadcast (Eg.writeTable 30 value) s

/-- EG.TBL 31 (R143). -/
def execEgTbl31 (value : Byte) (s : State) : Host.Outcome State Fault Refusal := egBroadcast (Eg.writeTable 31 value) s

/-- EG.TBL 32 (R143). -/
def execEgTbl32 (value : Byte) (s : State) : Host.Outcome State Fault Refusal := egBroadcast (Eg.writeTable 32 value) s

/-- EG.TBL 33 (R143). -/
def execEgTbl33 (value : Byte) (s : State) : Host.Outcome State Fault Refusal := egBroadcast (Eg.writeTable 33 value) s

/-- EG.TBL 34 (R143). -/
def execEgTbl34 (value : Byte) (s : State) : Host.Outcome State Fault Refusal := egBroadcast (Eg.writeTable 34 value) s

/-- EG.TBL 35 (R143). -/
def execEgTbl35 (value : Byte) (s : State) : Host.Outcome State Fault Refusal := egBroadcast (Eg.writeTable 35 value) s

/-- EG.TBL 36 (R143). -/
def execEgTbl36 (value : Byte) (s : State) : Host.Outcome State Fault Refusal := egBroadcast (Eg.writeTable 36 value) s

/-- EG.TBL 37 (R143). -/
def execEgTbl37 (value : Byte) (s : State) : Host.Outcome State Fault Refusal := egBroadcast (Eg.writeTable 37 value) s

/-- EG.TBL 38 (R143). -/
def execEgTbl38 (value : Byte) (s : State) : Host.Outcome State Fault Refusal := egBroadcast (Eg.writeTable 38 value) s

/-- EG.TBL 39 (R143). -/
def execEgTbl39 (value : Byte) (s : State) : Host.Outcome State Fault Refusal := egBroadcast (Eg.writeTable 39 value) s

end Sys2Proof.Machine
end

