-- ==== Sys2Proof/Machine/GlobalBlock.lean ====
section
/-! DEFINITION. POKEs to the global block (40_poke_and_host_ops.md R131 to R137). -/

namespace Sys2Proof.Machine

/-- G.CTRL: `G.ctrl <- value` (R131). -/
def execGCtrl (value : Byte) (s : State) : Host.Outcome State Fault Refusal :=
  globalWrite (fun g => { g with ctrl := value }) s

/-- G.CHSEL: `G.chsel <- value` (R132). -/
def execGChsel (value : Byte) (s : State) : Host.Outcome State Fault Refusal :=
  globalWrite (fun g => { g with chsel := value }) s

/-- G.EGSEL_LO: `G.egsel <- G.egsel[15:8] ++ value` (R133). -/
def execGEgselLo (value : Byte) (s : State) : Host.Outcome State Fault Refusal :=
  globalWrite (fun g => { g with egsel := setLo g.egsel value }) s

/-- G.EGSEL_HI: `G.egsel <- value ++ G.egsel[7:0]` (R134). -/
def execGEgselHi (value : Byte) (s : State) : Host.Outcome State Fault Refusal :=
  globalWrite (fun g => { g with egsel := setHi g.egsel value }) s

/-- G.WPTR_LO: `G.wptr <- G.wptr[15:8] ++ value` (R135). -/
def execGWptrLo (value : Byte) (s : State) : Host.Outcome State Fault Refusal :=
  globalWrite (fun g => { g with wptr := setLo g.wptr value }) s

/-- G.WPTR_HI: `G.wptr <- value ++ G.wptr[7:0]` (R136). -/
def execGWptrHi (value : Byte) (s : State) : Host.Outcome State Fault Refusal :=
  globalWrite (fun g => { g with wptr := setHi g.wptr value }) s

/-- The chip after a WDATA write: the byte is latched, stored at `G.wptr mod MEM_SIZE`, and the pointer advances modulo
65536 (R137; decision D5). -/
def Chip.writeData (value : Byte) (c : Chip) : Chip :=
  (c.setMem (memWrite c.mem c.g.wptr.toNat value)).setG { c.g with wdata := value, wptr := c.g.wptr + 1 }

/-- G.WDATA (R137). -/
def execGWdata (value : Byte) (s : State) : Host.Outcome State Fault Refusal :=
  .next (s.setChip (s.chip.writeData value))

end Sys2Proof.Machine
end

