-- ==== Sys2Proof/Machine/HostOps.lean ====
section
/-! DEFINITION. The host operations without an address, RENDER apart (40_poke_and_host_ops.md R156, R157). -/

namespace Sys2Proof.Machine

/-- INIT: every field of the chip takes its reset value (R39, R156). What has been emitted stays emitted. -/
def execInit (s : State) : Host.Outcome State Fault Refusal := .next (s.setChip Chip.reset)

/-- DESTROY: nothing (R157; decision D25; log 11). -/
def execDestroy (s : State) : Host.Outcome State Fault Refusal := .next s

end Sys2Proof.Machine
end

