-- ==== Sys2Proof/Machine/IgnoredWrites.lean ====
section
/-! DEFINITION. POKEs that no register answers (30_encoding.md R111, 40_poke_and_host_ops.md R155): one meaning for each of the
19 blocks that tile the unassigned addresses. -/

namespace Sys2Proof.Machine

/-- IGNORED.0007: addresses 0x0007 to 0x0007 (R155). -/
def execIgnored0007 (_value : Byte) (s : State) : Host.Outcome State Fault Refusal := ignoredWrite s

/-- IGNORED.0008_000F: addresses 0x0008 to 0x000F (R155). -/
def execIgnored0008 (_register : Reg16) (_value : Byte) (s : State) : Host.Outcome State Fault Refusal := ignoredWrite s

/-- IGNORED.0010_001F: addresses 0x0010 to 0x001F (R155). -/
def execIgnored0010 (_register : Reg16) (_value : Byte) (s : State) : Host.Outcome State Fault Refusal := ignoredWrite s

/-- IGNORED.0020_003F: addresses 0x0020 to 0x003F (R155). -/
def execIgnored0020 (_register : Reg16) (_value : Byte) (s : State) : Host.Outcome State Fault Refusal := ignoredWrite s

/-- IGNORED.006C_006F: addresses 0x006C to 0x006F (R155). -/
def execIgnored006C (_register : Reg16) (_value : Byte) (s : State) : Host.Outcome State Fault Refusal := ignoredWrite s

/-- IGNORED.0070_007F: addresses 0x0070 to 0x007F (R155). -/
def execIgnored0070 (_register : Reg16) (_value : Byte) (s : State) : Host.Outcome State Fault Refusal := ignoredWrite s

/-- IGNORED.008F: addresses 0x008F to 0x008F (R155). -/
def execIgnored008F (_value : Byte) (s : State) : Host.Outcome State Fault Refusal := ignoredWrite s

/-- IGNORED.0094_0097: addresses 0x0094 to 0x0097 (R155). -/
def execIgnored0094 (_register : Reg16) (_value : Byte) (s : State) : Host.Outcome State Fault Refusal := ignoredWrite s

/-- IGNORED.0098_009F: addresses 0x0098 to 0x009F (R155). -/
def execIgnored0098 (_register : Reg16) (_value : Byte) (s : State) : Host.Outcome State Fault Refusal := ignoredWrite s

/-- IGNORED.00A0_00BF: addresses 0x00A0 to 0x00BF (R155). -/
def execIgnored00A0 (_register : Reg16) (_value : Byte) (s : State) : Host.Outcome State Fault Refusal := ignoredWrite s

/-- IGNORED.00C0_00FF: addresses 0x00C0 to 0x00FF (R155). -/
def execIgnored00C0 (_register : Reg16) (_value : Byte) (s : State) : Host.Outcome State Fault Refusal := ignoredWrite s

/-- IGNORED.0100_01FF: addresses 0x0100 to 0x01FF (R155). -/
def execIgnored0100 (_register : Reg16) (_value : Byte) (s : State) : Host.Outcome State Fault Refusal := ignoredWrite s

/-- IGNORED.0200_03FF: addresses 0x0200 to 0x03FF (R155). -/
def execIgnored0200 (_register : Reg16) (_value : Byte) (s : State) : Host.Outcome State Fault Refusal := ignoredWrite s

/-- IGNORED.0400_07FF: addresses 0x0400 to 0x07FF (R155). -/
def execIgnored0400 (_register : Reg16) (_value : Byte) (s : State) : Host.Outcome State Fault Refusal := ignoredWrite s

/-- IGNORED.0800_0FFF: addresses 0x0800 to 0x0FFF (R155). -/
def execIgnored0800 (_register : Reg16) (_value : Byte) (s : State) : Host.Outcome State Fault Refusal := ignoredWrite s

/-- IGNORED.1000_1FFF: addresses 0x1000 to 0x1FFF (R155). -/
def execIgnored1000 (_register : Reg16) (_value : Byte) (s : State) : Host.Outcome State Fault Refusal := ignoredWrite s

/-- IGNORED.2000_3FFF: addresses 0x2000 to 0x3FFF (R155). -/
def execIgnored2000 (_register : Reg16) (_value : Byte) (s : State) : Host.Outcome State Fault Refusal := ignoredWrite s

/-- IGNORED.4000_7FFF: addresses 0x4000 to 0x7FFF (R155). -/
def execIgnored4000 (_register : Reg16) (_value : Byte) (s : State) : Host.Outcome State Fault Refusal := ignoredWrite s

/-- IGNORED.8000_FFFF: addresses 0x8000 to 0xFFFF (R155). -/
def execIgnored8000 (_register : Reg16) (_value : Byte) (s : State) : Host.Outcome State Fault Refusal := ignoredWrite s

end Sys2Proof.Machine
end

