-- ==== Sys2Proof/Machine/Dispatch.lean ====
section
/-! DEFINITION. One arm for each instruction. -/

namespace Sys2Proof.Machine

/-- What one instruction does to a state. -/
def exec (i : Instr) (s : State) : Host.Outcome State Fault Refusal :=
  match i with
  | .gCtrl value => Sys2Proof.Machine.execGCtrl value s
  | .gChsel value => Sys2Proof.Machine.execGChsel value s
  | .gEgselLo value => Sys2Proof.Machine.execGEgselLo value s
  | .gEgselHi value => Sys2Proof.Machine.execGEgselHi value s
  | .gWptrLo value => Sys2Proof.Machine.execGWptrLo value s
  | .gWptrHi value => Sys2Proof.Machine.execGWptrHi value s
  | .gWdata value => Sys2Proof.Machine.execGWdata value s
  | .egCtrl value => Sys2Proof.Machine.execEgCtrl value s
  | .egMul value => Sys2Proof.Machine.execEgMul value s
  | .egHold value => Sys2Proof.Machine.execEgHold value s
  | .egStride value => Sys2Proof.Machine.execEgStride value s
  | .egTbl0 value => Sys2Proof.Machine.execEgTbl0 value s
  | .egTbl1 value => Sys2Proof.Machine.execEgTbl1 value s
  | .egTbl2 value => Sys2Proof.Machine.execEgTbl2 value s
  | .egTbl3 value => Sys2Proof.Machine.execEgTbl3 value s
  | .egTbl4 value => Sys2Proof.Machine.execEgTbl4 value s
  | .egTbl5 value => Sys2Proof.Machine.execEgTbl5 value s
  | .egTbl6 value => Sys2Proof.Machine.execEgTbl6 value s
  | .egTbl7 value => Sys2Proof.Machine.execEgTbl7 value s
  | .egTbl8 value => Sys2Proof.Machine.execEgTbl8 value s
  | .egTbl9 value => Sys2Proof.Machine.execEgTbl9 value s
  | .egTbl10 value => Sys2Proof.Machine.execEgTbl10 value s
  | .egTbl11 value => Sys2Proof.Machine.execEgTbl11 value s
  | .egTbl12 value => Sys2Proof.Machine.execEgTbl12 value s
  | .egTbl13 value => Sys2Proof.Machine.execEgTbl13 value s
  | .egTbl14 value => Sys2Proof.Machine.execEgTbl14 value s
  | .egTbl15 value => Sys2Proof.Machine.execEgTbl15 value s
  | .egTbl16 value => Sys2Proof.Machine.execEgTbl16 value s
  | .egTbl17 value => Sys2Proof.Machine.execEgTbl17 value s
  | .egTbl18 value => Sys2Proof.Machine.execEgTbl18 value s
  | .egTbl19 value => Sys2Proof.Machine.execEgTbl19 value s
  | .egTbl20 value => Sys2Proof.Machine.execEgTbl20 value s
  | .egTbl21 value => Sys2Proof.Machine.execEgTbl21 value s
  | .egTbl22 value => Sys2Proof.Machine.execEgTbl22 value s
  | .egTbl23 value => Sys2Proof.Machine.execEgTbl23 value s
  | .egTbl24 value => Sys2Proof.Machine.execEgTbl24 value s
  | .egTbl25 value => Sys2Proof.Machine.execEgTbl25 value s
  | .egTbl26 value => Sys2Proof.Machine.execEgTbl26 value s
  | .egTbl27 value => Sys2Proof.Machine.execEgTbl27 value s
  | .egTbl28 value => Sys2Proof.Machine.execEgTbl28 value s
  | .egTbl29 value => Sys2Proof.Machine.execEgTbl29 value s
  | .egTbl30 value => Sys2Proof.Machine.execEgTbl30 value s
  | .egTbl31 value => Sys2Proof.Machine.execEgTbl31 value s
  | .egTbl32 value => Sys2Proof.Machine.execEgTbl32 value s
  | .egTbl33 value => Sys2Proof.Machine.execEgTbl33 value s
  | .egTbl34 value => Sys2Proof.Machine.execEgTbl34 value s
  | .egTbl35 value => Sys2Proof.Machine.execEgTbl35 value s
  | .egTbl36 value => Sys2Proof.Machine.execEgTbl36 value s
  | .egTbl37 value => Sys2Proof.Machine.execEgTbl37 value s
  | .egTbl38 value => Sys2Proof.Machine.execEgTbl38 value s
  | .egTbl39 value => Sys2Proof.Machine.execEgTbl39 value s
  | .chCtrl value => Sys2Proof.Machine.execChCtrl value s
  | .chVolL value => Sys2Proof.Machine.execChVolL value s
  | .chVolR value => Sys2Proof.Machine.execChVolR value s
  | .chAccmax value => Sys2Proof.Machine.execChAccmax value s
  | .chAeg value => Sys2Proof.Machine.execChAeg value s
  | .chFeg0 value => Sys2Proof.Machine.execChFeg0 value s
  | .chFeg1 value => Sys2Proof.Machine.execChFeg1 value s
  | .chFeg2 value => Sys2Proof.Machine.execChFeg2 value s
  | .chFeg3 value => Sys2Proof.Machine.execChFeg3 value s
  | .chFeg4 value => Sys2Proof.Machine.execChFeg4 value s
  | .chFeg5 value => Sys2Proof.Machine.execChFeg5 value s
  | .chFeg6 value => Sys2Proof.Machine.execChFeg6 value s
  | .chFeg7 value => Sys2Proof.Machine.execChFeg7 value s
  | .chFeg8 value => Sys2Proof.Machine.execChFeg8 value s
  | .chFeg9 value => Sys2Proof.Machine.execChFeg9 value s
  | .chLoopsLo value => Sys2Proof.Machine.execChLoopsLo value s
  | .chLoopsHi value => Sys2Proof.Machine.execChLoopsHi value s
  | .chLoopeLo value => Sys2Proof.Machine.execChLoopeLo value s
  | .chLoopeHi value => Sys2Proof.Machine.execChLoopeHi value s
  | .ignored0007 value => Sys2Proof.Machine.execIgnored0007 value s
  | .ignored0008 register value => Sys2Proof.Machine.execIgnored0008 register value s
  | .ignored0010 register value => Sys2Proof.Machine.execIgnored0010 register value s
  | .ignored0020 register value => Sys2Proof.Machine.execIgnored0020 register value s
  | .ignored006C register value => Sys2Proof.Machine.execIgnored006C register value s
  | .ignored0070 register value => Sys2Proof.Machine.execIgnored0070 register value s
  | .ignored008F value => Sys2Proof.Machine.execIgnored008F value s
  | .ignored0094 register value => Sys2Proof.Machine.execIgnored0094 register value s
  | .ignored0098 register value => Sys2Proof.Machine.execIgnored0098 register value s
  | .ignored00A0 register value => Sys2Proof.Machine.execIgnored00A0 register value s
  | .ignored00C0 register value => Sys2Proof.Machine.execIgnored00C0 register value s
  | .ignored0100 register value => Sys2Proof.Machine.execIgnored0100 register value s
  | .ignored0200 register value => Sys2Proof.Machine.execIgnored0200 register value s
  | .ignored0400 register value => Sys2Proof.Machine.execIgnored0400 register value s
  | .ignored0800 register value => Sys2Proof.Machine.execIgnored0800 register value s
  | .ignored1000 register value => Sys2Proof.Machine.execIgnored1000 register value s
  | .ignored2000 register value => Sys2Proof.Machine.execIgnored2000 register value s
  | .ignored4000 register value => Sys2Proof.Machine.execIgnored4000 register value s
  | .ignored8000 register value => Sys2Proof.Machine.execIgnored8000 register value s
  | .init => Sys2Proof.Machine.execInit s
  | .destroy => Sys2Proof.Machine.execDestroy s
  | .render frameCount => Sys2Proof.Machine.execRender frameCount s
  | .frame => Sys2Proof.Machine.execFrame s
  | .chRender c side => Sys2Proof.Machine.execChRender c side s
  | .egRender e useExponential => Sys2Proof.Machine.execEgRender e useExponential s
  | .stageProcess c k input side => Sys2Proof.Machine.execStageProcess c k input side s
  | .lut level => Sys2Proof.Machine.execLut level s

end Sys2Proof.Machine
end

