-- ==== Sys2Proof/Machine/Step.lean ====
section
/-! DEFINITION. One step: the chip starts and completes the oldest operation the host has issued (R12, R79; log 3). -/

namespace Sys2Proof.Machine

/-- Take the oldest transaction, decode it and run it. With none issued the chip does nothing (R360, R378). -/
def step (s : State) : Host.Outcome State Fault Refusal :=
  match s.queue with
  | [] => .next s
  | t :: rest =>
    match decode t with
    | .ok i => exec i (s.setQueue rest)
    | .error _ => .refused .undecodable

/-- The state with the POKE of a table row's word issued as the next operation (log 7, log 8). A length that no POKE row
has changes nothing. -/
def State.withFetchWord (s : State) (nbits w : Nat) : State :=
  match tableTransaction nbits w with
  | some t => s.setQueue (t :: s.queue)
  | none => s

end Sys2Proof.Machine
end

