-- ==== Sys2Proof/Safety.lean ====
section
/-! DEFINITION. What the claims are stated in: the invariant of the chip between operations, which EGs a frame references, what
a write leaves alone, and the micro-operation sequences of a CH.RENDER (R260) and a FRAME (R301) written out over `exec`. -/

namespace Sys2Proof.Machine

/-- No entry of the delay line is -32768: every entry lies in [-32767, 32767] (R29). -/
abbrev DelayLine.InRange (d : DelayLine) : Prop := d.d0 ≠ 0x8000 ∧ d.d1 ≠ 0x8000 ∧ d.d2 ≠ 0x8000

/-- What holds between operations: memory canonical, every cursor in 0..40 (R25), every `step_queued` 0 (R26, R307), every
delay entry in [-32767, 32767] (R29). -/
abbrev State.Inv (s : State) : Prop :=
  Memory.wf s.chip.mem ∧
  (∀ e : Fin 16, (s.chip.eg e).currentEntry.toNat ≤ 40 ∧ (s.chip.eg e).stepQueued = false) ∧
  ∀ c : Fin 8, ∀ k : Fin 2, ((s.chip.ch c).stage k).left.InRange ∧ ((s.chip.ch c).stage k).right.InRange

/-- Some channel references the EG, as its amplitude EG or as a filter-coefficient EG (R302). -/
abbrev Chip.References (c : Chip) (e : Fin 16) : Prop :=
  ∃ k : Fin 8, (c.ch k).aeg.toNat = e.val ∨ ∃ j : Fin 10, (c.ch k).feg[j].toNat = e.val

/-- The EG is keyed on and its cursor has not passed the hold point (R209, 90_conflicts.md C11). -/
abbrev Eg.HoldLocked (g : Eg) : Prop := g.keyOn = true ∧ g.currentEntry.toNat ≤ g.holdPoint.toNat

/-- The two instructions complete one after the other, and `P` holds of the state they leave. -/
def HoldsAfterBoth (first second : Instr) (s : State) (P : State → Prop) : Prop :=
  ∃ t u, exec first s = .next t ∧ exec second t = .next u ∧ P u

/-- Nothing but the EG bank differs. -/
def OnlyEgsDiffer (s t : State) : Prop :=
  t.chip.g = s.chip.g ∧ t.chip.mem = s.chip.mem ∧ t.chip.chs = s.chip.chs ∧
  t.queue = s.queue ∧ t.out = s.out ∧ t.ret = s.ret

/-- Nothing but the channel bank differs. -/
def OnlyChannelsDiffer (s t : State) : Prop :=
  t.chip.g = s.chip.g ∧ t.chip.mem = s.chip.mem ∧ t.chip.egs = s.chip.egs ∧
  t.queue = s.queue ∧ t.out = s.out ∧ t.ret = s.ret

/-- The instruction completes, changes every EG with its bit of `G.egsel` set by `f`, and changes nothing else. -/
def WritesSelectedEgs (i : Instr) (f : Eg → Eg) : Prop :=
  ∀ s, ∃ t, exec i s = .next t ∧ OnlyEgsDiffer s t ∧
    ∀ e : Fin 16, t.chip.eg e = if s.chip.g.egsel.getLsbD e.val = true then f (s.chip.eg e) else s.chip.eg e

/-- The instruction completes, changes every channel with its bit of `G.chsel` set by `f`, and changes nothing else. -/
def WritesSelectedChannels (i : Instr) (f : Channel → Channel) : Prop :=
  ∀ s, ∃ t, exec i s = .next t ∧ OnlyChannelsDiffer s t ∧
    ∀ c : Fin 8, t.chip.ch c = if s.chip.g.chsel.getLsbD c.val = true then f (s.chip.ch c) else s.chip.ch c

/-- The fields of an EG that RENDER never changes (R23, R24). -/
def Eg.sameConfig (g h : Eg) : Prop :=
  h.multiplier = g.multiplier ∧ h.holdPoint = g.holdPoint ∧ h.stride = g.stride ∧ h.table = g.table ∧ h.keyOn = g.keyOn

/-- The fields of a channel that RENDER never changes (R30). -/
def Channel.sameConfig (a b : Channel) : Prop :=
  b.volL = a.volL ∧ b.volR = a.volR ∧ b.accMax = a.accMax ∧ b.aeg = a.aeg ∧ b.feg = a.feg ∧
  b.loopStart = a.loopStart ∧ b.loopEnd = a.loopEnd

/-- The fields of an EG that no POKE changes (R25, R26, R158). -/
def Eg.sameRuntime (g h : Eg) : Prop :=
  h.currentEntry = g.currentEntry ∧ h.currentStride = g.currentStride ∧ h.stepQueued = g.stepQueued

/-- The fields of a channel that no POKE changes (R32, R158). -/
def Channel.sameRuntime (a b : Channel) : Prop := b.acc = a.acc ∧ b.ptr = a.ptr ∧ b.st = a.st

/-- The state with another byte in G.CTRL. -/
def State.withCtrl (s : State) (v : Byte) : State :=
  s.setChip (s.chip.setG { s.chip.g with ctrl := v })

/-- The clamp of R8 written as a case distinction, as a 16-bit register. -/
def clamped (v : Int) : Sample :=
  BitVec.ofInt 16 (if 32767 < v then 32767 else if v < -32767 then -32767 else v)

/-- One micro-operation and the i16 it returns, if it completes and returns one. -/
def callMicro (i : Instr) (s : State) : Option (State × Sample) :=
  match exec i s with
  | .next t => match t.ret with
    | .sample v => some (t, v)
    | _ => none
  | _ => none

/-- EG.RENDER in linear mode for each index in turn (R264). -/
def callFegs : List EgIndex → State → Option (State × List Sample)
  | [], s => some (s, [])
  | i :: rest, s =>
    (callMicro (.egRender i.toFin false) s).bind fun p =>
      (callFegs rest p.1).bind fun q => some (q.1, p.2 :: q.2)

/-- Steps 1 and 3 of CH.RENDER on the channel's pointer and accumulator (R261, R263). -/
def pointerMoved (side : Side) (ch : Channel) (p : Nat) : Channel :=
  match side with
  | .left => { ch with ptr := BitVec.ofNat 15 p }
  | .right =>
    if ch.acc.toNat = 0 then { ch with ptr := BitVec.ofNat 15 ((p + 1) % 32768), acc := ch.accMax }
    else { ch with ptr := BitVec.ofNat 15 p, acc := BitVec.ofNat 8 (ch.acc.toNat - 1) }

/-- The pointer after step 1 of CH.RENDER (R261). -/
def pointerChecked (ch : Channel) : Nat :=
  if ch.keyReset = true ∨ ch.loopEnd.toNat % 32768 < ch.ptr.toNat then ch.loopStart.toNat % 32768 else ch.ptr.toNat

/-- The channel with the ten coefficients of step 4 loaded: `ST[0].coeff[i] <- v[i]`, `ST[1].coeff[i] <- v[5 + i]` (R264). -/
def coeffsLoaded (v : List Sample) (ch : Channel) : Channel :=
  { ch with st := Vector.ofFn fun k : Fin 2 =>
      { ch.stage k with coeff := Vector.ofFn fun i : Fin 5 => v.getD (5 * k.val + i.val) 0 } }

/-- The pseudocode of R260 over the micro-operations EG.RENDER and STAGE.PROCESS. -/
def chRenderScript (c : Fin 8) (side : Side) (s : State) : Option (State × Sample) :=
  let ch := s.chip.ch c
  let p := pointerChecked ch
  let vol : Byte := match side with
    | .left => ch.volL
    | .right => ch.volR
  let x := clamped ((memRead s.chip.mem p).toInt * 256 * vol.toInt)
  (callFegs ch.feg.toList (s.setChip (s.chip.setCh c (pointerMoved side ch p)))).bind fun q4 =>
  (callMicro (.stageProcess c 0 x side) (q4.1.setChip (q4.1.chip.setCh c (coeffsLoaded q4.2 (q4.1.chip.ch c))))).bind fun q5 =>
  (callMicro (.stageProcess c 1 q5.2 side) q5.1).bind fun q6 =>
  (callMicro (.egRender ch.aeg.toFin true) q6.1).bind fun q7 =>
  some (q7.1.setChip (q7.1.chip.setCh c { q7.1.chip.ch c with keyReset := false }),
    clamped (q6.2.toInt.tdiv 256 * q7.2.toInt))

/-- Step (c) of R301 over CH.RENDER: Left then Right of each channel, added into two 16-bit totals that wrap. -/
def frameScript : List (Fin 8) → State × StereoFrame → Option (State × StereoFrame)
  | [], p => some p
  | c :: rest, p =>
    (callMicro (.chRender c .left) p.1).bind fun l =>
    (callMicro (.chRender c .right) l.1).bind fun r =>
    frameScript rest (r.1, { l := p.2.l + l.2, r := p.2.r + r.2 })

/-- Steps (a) and (b) of R301: every referenced EG has its step queued (R302, R303). -/
def State.marked (s : State) : State :=
  s.setChip { s.chip with egs := Vector.ofFn fun e : Fin 16 =>
    { s.chip.eg e with stepQueued := (s.chip.eg e).stepQueued || decide (s.chip.References e) } }

end Sys2Proof.Machine
end

