-- ==== Sys2Proof/Certificates/Slice0/Obligations.lean ====
section
/-! DEFINITION. The statements for the provers, from the numbered rules of spec/. A statement that rests on a decision the spec
marks as its own (D<n> of 92_eei_decisions.md), on an inference it marks `[derived]`, or on a log entry says so. -/

open Sys2Proof Sys2Proof.Machine

/-! ### Step, decoding, encoding -/

/-- A step runs the instruction that the oldest issued operation decodes to, on the state without that operation; with none
issued the chip does nothing (R12, R79, R360). That the issued operations stand in a queue is the model's choice (log 3). -/
def Obligations.StepRunsOldestOperation : Prop :=
  (∀ (s : State) (t : Transaction) (rest : List Transaction) (i : Instr),
    s.queue = t :: rest → decode t = .ok i → step s = exec i { s with queue := rest }) ∧
  ∀ s : State, s.queue = [] → step s = .next s

/-- A word placed by `withFetchWord` is the very next operation a step runs, and nothing else is disturbed. The numbering of a
table word's bits is the model's reading (log 7). -/
def Obligations.FetchWordRunsNext : Prop :=
  ∀ (s : State) (nbits w : Nat) (i : Instr),
    decodeTableWord nbits w = some i → step (s.withFetchWord nbits w) = exec i s

/-- POKE words written out from the tables of R102 to R104, whose addresses are decision D3. -/
def Obligations.SpecWordsDecode : Prop :=
  decode (.poke 0x0000FF#24) = .ok (.gCtrl 0xFF) ∧ decode (.poke 0x000181#24) = .ok (.gChsel 0x81) ∧
  decode (.poke 0x000380#24) = .ok (.gEgselHi 0x80) ∧ decode (.poke 0x0006AB#24) = .ok (.gWdata 0xAB) ∧
  decode (.poke 0x004003#24) = .ok (.egCtrl 0x03) ∧ decode (.poke 0x004180#24) = .ok (.egMul 0x80) ∧
  decode (.poke 0x004411#24) = .ok (.egTbl 0 0x11) ∧ decode (.poke 0x006B22#24) = .ok (.egTbl 39 0x22) ∧
  decode (.poke 0x008001#24) = .ok (.chCtrl 0x01) ∧ decode (.poke 0x00842F#24) = .ok (.chAeg 0x2F) ∧
  decode (.poke 0x008513#24) = .ok (.chFeg 0 0x13) ∧ decode (.poke 0x008E04#24) = .ok (.chFeg 9 0x04) ∧
  decode (.poke 0x008F55#24) = .ok (.ignored008F 0x55) ∧ decode (.poke 0x0093C8#24) = .ok (.chLoopeHi 0xC8) ∧
  decode (.poke 0xFFFF01#24) = .ok (.ignored8000 0xFFFF 0x01)

/-- Decoding the transaction of a well-formed instruction gives the instruction back, with every operand. -/
def Obligations.DecodeInvertsEncode : Prop :=
  ∀ (i : Instr) (t : Transaction), i.wellFormed = true → encode i = some t → decode t = .ok i

/-- Every transaction is legal: it decodes to a well-formed instruction that encodes to it, and that instruction completes in every
state; there is no illegal-operation trap (R332). -/
def Obligations.EveryTransactionDecodes : Prop :=
  ∀ t : Transaction, ∃ i, decode t = .ok i ∧ i.wellFormed = true ∧ encode i = some t ∧ ∀ s, ∃ u, exec i s = .next u

/-- A bit string that is not one 24-bit transaction is rejected by name: there is one transaction length and one format
(R112). Rejection is the model's own (the spec has no such port). -/
def Obligations.OtherLengthsRejected : Prop :=
  ∀ nbits w : Nat, (nbits = 24 ∧ w < 2 ^ 24 → decodeBits nbits w = decode (.poke (BitVec.ofNat 24 w))) ∧
    (¬(nbits = 24 ∧ w < 2 ^ 24) → decodeBits nbits w = .error .notOneTransaction)

/-- A POKE outside the tables of R102 to R104 is ignored, whatever its value: the step changes nothing but the queue. A POKE
inside them is no ignored write. The addresses are this spec's map, decision D3 (R111). -/
def Obligations.UnassignedPokeIgnored : Prop :=
  ∀ (a : Reg16) (v : Byte),
    ((7 ≤ a.toNat ∧ a.toNat ≤ 0x3F) ∨ (0x6C ≤ a.toNat ∧ a.toNat ≤ 0x7F) ∨ a.toNat = 0x8F ∨ 0x94 ≤ a.toNat →
      ∀ (s : State) (rest : List Transaction), s.queue = .poke (pokeWord a v) :: rest →
        step s = .next { s with queue := rest }) ∧
    (a.toNat ≤ 6 ∨ (0x40 ≤ a.toNat ∧ a.toNat ≤ 0x6B) ∨ (0x80 ≤ a.toNat ∧ a.toNat ≤ 0x93 ∧ a.toNat ≠ 0x8F) →
      ∃ i, decodePoke a v = .ok i ∧ i.ignoredPoke = none)

/-- Each of the 19 ignored blocks: the write leaves the state exactly as it was (R155). -/
def Obligations.IgnoredWriteChangesNothing : Prop :=
  ∀ (i : Instr) (p : Reg16 × Byte), i.ignoredPoke = some p → ∀ s : State, exec i s = .next s

/-! ### POKEs to the global block -/

/-- G.CHSEL, at 0x0001, stores the byte and changes nothing else; with value 0 every channel is deselected and a channel-block POKE
changes nothing, with 0xFF all 8 are selected (R132). -/
def Obligations.ChannelSelectStored : Prop :=
  ∀ v : Byte, decodePoke 0x0001 v = .ok (.gChsel v) ∧
    (∀ s : State, exec (.gChsel v) s = .next { s with chip := { s.chip with g := { s.chip.g with chsel := v } } }) ∧
    (v = 0 → ∀ (s t : State) (a : Reg16) (w : Byte) (i : Instr), exec (.gChsel v) s = .next t →
      0x80 ≤ a.toNat → a.toNat ≤ 0x93 → decodePoke a w = .ok i → exec i t = .next t) ∧
    (v = 0xFF → ∀ (s t : State) (c : Fin 8), exec (.gChsel v) s = .next t → t.chip.g.chsel.getLsbD c.val = true)

/-- Each half of G.EGSEL and G.WPTR, at 0x0002 to 0x0005, is replaced alone, the other half kept, and nothing else changes, sample
memory included (R133 to R136). A pointer of 32768 or more indexes the cell of the pointer minus 32768, as R136 says of the
default MEM_SIZE: that clause rests on the model's choice of that size (log 2, decision D1). -/
def Obligations.SelectAndPointerHalves : Prop :=
  ∀ (v : Byte) (s : State),
    decodePoke 0x0002 v = .ok (.gEgselLo v) ∧ decodePoke 0x0003 v = .ok (.gEgselHi v) ∧
    decodePoke 0x0004 v = .ok (.gWptrLo v) ∧ decodePoke 0x0005 v = .ok (.gWptrHi v) ∧
    (∀ a : Nat, 32768 ≤ a → memRead s.chip.mem a = memRead s.chip.mem (a - 32768)) ∧
    exec (.gEgselLo v) s =
      .next { s with chip := { s.chip with g := { s.chip.g with egsel := s.chip.g.egsel.extractLsb' 8 8 ++ v } } } ∧
    exec (.gEgselHi v) s =
      .next { s with chip := { s.chip with g := { s.chip.g with egsel := v ++ s.chip.g.egsel.extractLsb' 0 8 } } } ∧
    exec (.gWptrLo v) s =
      .next { s with chip := { s.chip with g := { s.chip.g with wptr := s.chip.g.wptr.extractLsb' 8 8 ++ v } } } ∧
    exec (.gWptrHi v) s =
      .next { s with chip := { s.chip with g := { s.chip.g with wptr := v ++ s.chip.g.wptr.extractLsb' 0 8 } } }

/-- G.CTRL, at 0x0000, stores the byte and changes nothing else (R131, which rests on decision D2; the address is D3). -/
def Obligations.ControlByteStored : Prop :=
  ∀ (v : Byte) (s : State), decodePoke 0x0000 v = .ok (.gCtrl v) ∧
    exec (.gCtrl v) s = .next { s with chip := { s.chip with g := { s.chip.g with ctrl := v } } }

/-- G.WDATA, at 0x0006, latches the byte, stores it at `G.wptr mod MEM_SIZE`, then advances the pointer modulo 65536 (R137,
decisions D3, D5 and D32; MEM_SIZE is the model's 32768, log 2). Every other cell reads as before, and nothing else changes.
The premise is the memory's canonical form, which every step keeps. -/
def Obligations.WdataStoresThenAdvances : Prop :=
  ∀ (v : Byte) (s : State), Memory.wf s.chip.mem → decodePoke 0x0006 v = .ok (.gWdata v) ∧ ∃ t, exec (.gWdata v) s = .next t ∧
    t.chip.g.wdata = v ∧ t.chip.g.wptr.toNat = (s.chip.g.wptr.toNat + 1) % 65536 ∧
    t.chip.g.ctrl = s.chip.g.ctrl ∧ t.chip.g.chsel = s.chip.g.chsel ∧ t.chip.g.egsel = s.chip.g.egsel ∧
    (∀ a : Nat, a % 32768 = s.chip.g.wptr.toNat % 32768 → memRead t.chip.mem a = v) ∧
    (∀ a : Nat, a % 32768 ≠ s.chip.g.wptr.toNat % 32768 → memRead t.chip.mem a = memRead s.chip.mem a) ∧
    t.chip.egs = s.chip.egs ∧ t.chip.chs = s.chip.chs ∧ t.queue = s.queue ∧ t.out = s.out ∧ t.ret = s.ret

/-! ### Broadcast POKEs -/

/-- EG.CTRL, at 0x0040, assigns `key_reset` from bit 0 and `key_on` from bit 1 of every selected EG and changes nothing else
(R103, R105, R139, which rest on decisions D3, D6 and D23). -/
def Obligations.EgControlAssignsFlags : Prop :=
  ∀ v : Byte, decodePoke 0x0040 v = .ok (.egCtrl v) ∧
    WritesSelectedEgs (.egCtrl v) fun g => { g with keyReset := v.getLsbD 0, keyOn := v.getLsbD 1 }

/-- EG.MUL, at 0x0041, stores the byte, read as signed, and EG.HOLD, at 0x0042, stores the byte, in every selected EG (R103,
R140, R141, which rest on decisions D3, D8, D9 and D24). -/
def Obligations.EgMultiplierAndHoldStored : Prop :=
  ∀ v : Byte, decodePoke 0x0041 v = .ok (.egMul v) ∧ decodePoke 0x0042 v = .ok (.egHold v) ∧
    WritesSelectedEgs (.egMul v) (fun g => { g with multiplier := v }) ∧ s8 v = v.toInt ∧
    WritesSelectedEgs (.egHold v) (fun g => { g with holdPoint := v })

/-- EG.STRIDE, at 0x0043, and each EG.TBL n, at 0x0044 + n, store the byte in every selected EG and change nothing else; the
stride counter is not touched (R142, R143, for the write itself; R103, whose addresses are decision D3). -/
def Obligations.EgStrideAndTableStored : Prop :=
  ∀ v : Byte, decodePoke 0x0043 v = .ok (.egStride v) ∧
    WritesSelectedEgs (.egStride v) (fun g => { g with stride := v }) ∧
    ∀ n : Fin 40, decodePoke (BitVec.ofNat 16 (0x44 + n.val)) v = .ok (.egTbl n v) ∧
      WritesSelectedEgs (.egTbl n v) fun g => { g with table := g.table.set n v }

/-- CH.CTRL, at 0x0080, assigns `key_reset` from bit 0 of every selected channel and changes nothing else, the pointer included
(R104, R106, R145, which rest on decisions D3, D7 and D23). -/
def Obligations.ChannelControlAssignsFlag : Prop :=
  ∀ v : Byte, decodePoke 0x0080 v = .ok (.chCtrl v) ∧
    WritesSelectedChannels (.chCtrl v) fun ch => { ch with keyReset := v.getLsbD 0 }

/-- The volumes, CH.ACCMAX and the EG indices of every selected channel, at 0x0081 to 0x008E: a volume keeps the byte, an index
keeps `value[3:0]` (R104, R146 to R150, R33, which rest on decisions D3 and D8). -/
def Obligations.ChannelByteRegistersStored : Prop :=
  ∀ v : Byte, decodePoke 0x0081 v = .ok (.chVolL v) ∧ decodePoke 0x0082 v = .ok (.chVolR v) ∧
    decodePoke 0x0083 v = .ok (.chAccmax v) ∧ decodePoke 0x0084 v = .ok (.chAeg v) ∧
    (∀ k : Fin 10, decodePoke (BitVec.ofNat 16 (0x85 + k.val)) v = .ok (.chFeg k v)) ∧
    WritesSelectedChannels (.chVolL v) (fun ch => { ch with volL := v }) ∧
    WritesSelectedChannels (.chVolR v) (fun ch => { ch with volR := v }) ∧
    WritesSelectedChannels (.chAccmax v) (fun ch => { ch with accMax := v }) ∧
    WritesSelectedChannels (.chAeg v) (fun ch => { ch with aeg := BitVec.ofNat 4 (v.toNat % 16) }) ∧
    ∀ k : Fin 10, WritesSelectedChannels (.chFeg k v) fun ch =>
      { ch with feg := ch.feg.set k (BitVec.ofNat 4 (v.toNat % 16)) }

/-- Each half of a loop register, at 0x0090 to 0x0093, is replaced alone in every selected channel; the other half and the read
pointer are kept (R151 and R154; R152 and R153 for the write itself). -/
def Obligations.ChannelLoopHalvesStored : Prop :=
  ∀ v : Byte,
    decodePoke 0x0090 v = .ok (.chLoopsLo v) ∧ decodePoke 0x0091 v = .ok (.chLoopsHi v) ∧
    decodePoke 0x0092 v = .ok (.chLoopeLo v) ∧ decodePoke 0x0093 v = .ok (.chLoopeHi v) ∧
    WritesSelectedChannels (.chLoopsLo v) (fun ch => { ch with loopStart := ch.loopStart.extractLsb' 8 8 ++ v }) ∧
    WritesSelectedChannels (.chLoopsHi v) (fun ch => { ch with loopStart := v ++ ch.loopStart.extractLsb' 0 8 }) ∧
    WritesSelectedChannels (.chLoopeLo v) (fun ch => { ch with loopEnd := ch.loopEnd.extractLsb' 8 8 ++ v }) ∧
    WritesSelectedChannels (.chLoopeHi v) (fun ch => { ch with loopEnd := v ++ ch.loopEnd.extractLsb' 0 8 })

/-- A broadcast is lane-wise: a POKE into a broadcast block changes each selected unit by one function of that unit alone, the
same function for every lane and in every state, and leaves every unselected unit and everything else alone (R160). -/
def Obligations.BroadcastIsLaneWise : Prop :=
  ∀ (a : Reg16) (v : Byte) (i : Instr), decodePoke a v = .ok i →
    (0x40 ≤ a.toNat ∧ a.toNat ≤ 0x6B → ∃ f : Eg → Eg, WritesSelectedEgs i f) ∧
    (0x80 ≤ a.toNat ∧ a.toNat ≤ 0x93 → ∃ f : Channel → Channel, WritesSelectedChannels i f)

/-- A 16-bit register after both its halves are poked, in either order, is `hi ++ lo`, little-endian: G.EGSEL and G.WPTR, and a
selected channel's loop_start and loop_end (R108, decision D4). -/
def Obligations.HalvesAssembleLittleEndian : Prop :=
  ∀ (lo hi : Byte) (s : State),
    HoldsAfterBoth (.gEgselLo lo) (.gEgselHi hi) s (fun u => u.chip.g.egsel.toNat = hi.toNat * 256 + lo.toNat) ∧
    HoldsAfterBoth (.gEgselHi hi) (.gEgselLo lo) s (fun u => u.chip.g.egsel.toNat = hi.toNat * 256 + lo.toNat) ∧
    HoldsAfterBoth (.gWptrLo lo) (.gWptrHi hi) s (fun u => u.chip.g.wptr.toNat = hi.toNat * 256 + lo.toNat) ∧
    HoldsAfterBoth (.gWptrHi hi) (.gWptrLo lo) s (fun u => u.chip.g.wptr.toNat = hi.toNat * 256 + lo.toNat) ∧
    ∀ c : Fin 8, s.chip.g.chsel.getLsbD c.val = true →
      HoldsAfterBoth (.chLoopsLo lo) (.chLoopsHi hi) s (fun u => (u.chip.ch c).loopStart.toNat = hi.toNat * 256 + lo.toNat) ∧
      HoldsAfterBoth (.chLoopsHi hi) (.chLoopsLo lo) s (fun u => (u.chip.ch c).loopStart.toNat = hi.toNat * 256 + lo.toNat) ∧
      HoldsAfterBoth (.chLoopeLo lo) (.chLoopeHi hi) s (fun u => (u.chip.ch c).loopEnd.toNat = hi.toNat * 256 + lo.toNat) ∧
      HoldsAfterBoth (.chLoopeHi hi) (.chLoopeLo lo) s (fun u => (u.chip.ch c).loopEnd.toNat = hi.toNat * 256 + lo.toNat)

/-! ### INIT, DESTROY, reset -/

/-- INIT puts every field of R21 to R32 to zero (R39). What the host has issued and what has been emitted is not chip state. -/
def Obligations.InitZeroesEveryField : Prop :=
  ∀ s : State, ∃ t, exec .init s = .next t ∧
    t.chip.g = { ctrl := 0, chsel := 0, egsel := 0, wptr := 0, wdata := 0 } ∧
    (∀ a : Nat, memRead t.chip.mem a = 0) ∧
    (∀ e : Fin 16, t.chip.eg e =
      { multiplier := 0, holdPoint := 0, stride := 0, table := Vector.replicate 40 0, keyReset := false, keyOn := false,
        currentEntry := 0, currentStride := 0, stepQueued := false }) ∧
    (∀ c : Fin 8, t.chip.ch c =
      { keyReset := false, volL := 0, volR := 0, accMax := 0, aeg := 0, feg := Vector.replicate 10 0, loopStart := 0,
        loopEnd := 0, acc := 0, ptr := 0,
        st := Vector.replicate 2
          { coeff := Vector.replicate 5 0, left := { d0 := 0, d1 := 0, d2 := 0 }, right := { d0 := 0, d1 := 0, d2 := 0 } } }) ∧
    t.queue = s.queue ∧ t.out = s.out ∧ t.ret = s.ret

/-- The state after reset is the INIT state, whatever went before, with nothing issued and nothing emitted. Starting from the
INIT state is the model's choice among those R40 and U6 allow (log 9). -/
def Obligations.ResetIsInitState : Prop :=
  (∀ s t : State, exec .init s = .next t → t.chip = State.reset.chip) ∧
  State.reset.queue = [] ∧ State.reset.out = [] ∧ State.reset.ret = .nothing

/-- DESTROY changes no state (R157, decision D25; log 11). -/
def Obligations.DestroyChangesNothing : Prop := ∀ s : State, exec .destroy s = .next s

/-! ### EG.RENDER and LUT -/

/-- EG.RENDER step by step: the key-reset, the consumed step with its three outcomes, the clamped table read, the output, and
that nothing else changes (R200 to R204, which rest on decisions D11 and D19). -/
def Obligations.EgRenderRunsItsSteps : Prop :=
  ∀ (e : Fin 16) (x : Bool) (s : State), ∃ t, exec (.egRender e x) s = .next t ∧
    let g := s.chip.eg e
    let n0 := if g.keyReset = true then 0 else g.currentEntry.toNat
    let k0 := if g.keyReset = true then 0 else g.currentStride.toNat
    let steps := g.stepQueued = true ∧ n0 < 40
    let free := g.keyOn = false ∨ n0 ≠ g.holdPoint.toNat
    let n1 := if steps ∧ g.stride.toNat ≤ k0 ∧ free then n0 + 1 else n0
    let k1 := if steps then (if k0 < g.stride.toNat then k0 + 1 else if free then 0 else k0) else k0
    let level := g.table[min n1 39]'(by omega)
    t.chip.eg e =
      { g with keyReset := false, stepQueued := false, currentEntry := BitVec.ofNat 6 n1, currentStride := BitVec.ofNat 8 k1 } ∧
    t.ret = .sample (clamped (g.multiplier.toInt * if x = true then Config.expLut level else (level.toNat : Int))) ∧
    (∀ j, j ≠ e → t.chip.eg j = s.chip.eg j) ∧
    t.chip.g = s.chip.g ∧ t.chip.mem = s.chip.mem ∧ t.chip.chs = s.chip.chs ∧ t.queue = s.queue ∧ t.out = s.out

/-- The terminal state: at cursor 40 with no key-reset a call changes nothing but `step_queued` and returns the value of
`table[39]`; a key-reset leaves the terminal state (R210). -/
def Obligations.TerminalStateHolds : Prop :=
  ∀ (e : Fin 16) (x : Bool) (s : State), (s.chip.eg e).currentEntry.toNat = 40 →
    ((s.chip.eg e).keyReset = false → ∃ t, exec (.egRender e x) s = .next t ∧
      t.chip.eg e = { s.chip.eg e with stepQueued := false } ∧
      t.ret = .sample (clamped ((s.chip.eg e).multiplier.toInt *
        if x = true then Config.expLut (s.chip.eg e).table[39] else ((s.chip.eg e).table[39].toNat : Int)))) ∧
    ((s.chip.eg e).keyReset = true → ∃ t, exec (.egRender e x) s = .next t ∧ (t.chip.eg e).currentEntry.toNat ≤ 1)

/-- A second call of the same EG, in either mode, changes nothing; and the mode of a call does not affect the chip it leaves
(R207, R212, which the spec marks as derived). -/
def Obligations.SecondEgCallChangesNothing : Prop :=
  ∀ (e : Fin 16) (x y : Bool) (s : State), ∃ t u w, exec (.egRender e x) s = .next t ∧
    exec (.egRender e y) t = .next u ∧ u.chip = t.chip ∧ exec (.egRender e y) s = .next w ∧ w.chip = t.chip ∧ u.ret = w.ret

/-- LUT returns the entry of EXP_LUT and touches no state of the chip (R205, decision D10). It holds for every EXP_LUT. -/
def Obligations.LutReturnsEntry : Prop :=
  ∀ (level : Byte) (s : State), exec (.lut level) s = .next { s with ret := .gain (Config.expLut level) }

/-! ### STAGE.PROCESS -/

/-- STAGE.PROCESS on its domain: the push with its negations, the intermediate value and the output with the clamp after each
addition (R230 to R233, which rest on decisions D11, D12 and D13; the output half is the form of U3). -/
def Obligations.StageComputesOutput : Prop :=
  ∀ (c : Fin 8) (k : Fin 2) (x : Sample) (side : Side) (s : State), x ≠ 0x8000 →
    let d := ((s.chip.ch c).stage k).delay side
    let q := ((s.chip.ch c).stage k).coeff
    d.InRange → ∃ t, exec (.stageProcess c k x side) s = .next t ∧
      let d' := ((t.chip.ch c).stage k).delay side
      d'.d0 = x ∧ d'.d1.toInt = -d.d0.toInt ∧ d'.d2.toInt = -d.d1.toInt ∧
      let term (u w : Int) : Int := (u * w).tdiv 32768
      let m0 := (clamped (term x.toInt q[0].toInt)).toInt
      let m1 := (clamped (m0 + term (-d.d0.toInt) q[1].toInt)).toInt
      let m := (clamped (m1 + term (-d.d1.toInt) q[2].toInt)).toInt
      let y0 := (clamped (term m q[3].toInt)).toInt
      t.ret = .sample (clamped (y0 + term m q[4].toInt))

/-- A call on one side reads and writes only that side's delay line: coefficients, the other line, the other stages, channels and
everything else are unchanged, and what it returns depends on the coefficients and that line alone (R234). -/
def Obligations.StageSidesNeverMix : Prop :=
  ∀ (c : Fin 8) (k : Fin 2) (x : Sample) (side : Side), x ≠ 0x8000 →
    (∀ s : State, ∃ t, exec (.stageProcess c k x side) s = .next t ∧
      ((t.chip.ch c).stage k).coeff = ((s.chip.ch c).stage k).coeff ∧
      (∀ other, other ≠ side → ((t.chip.ch c).stage k).delay other = ((s.chip.ch c).stage k).delay other) ∧
      (∀ j, j ≠ k → (t.chip.ch c).stage j = (s.chip.ch c).stage j) ∧
      t.chip.ch c = { s.chip.ch c with st := (t.chip.ch c).st } ∧
      (∀ j, j ≠ c → t.chip.ch j = s.chip.ch j) ∧
      t.chip.egs = s.chip.egs ∧ t.chip.g = s.chip.g ∧ t.chip.mem = s.chip.mem ∧ t.queue = s.queue ∧ t.out = s.out) ∧
    ∀ s s' t t' : State, ((s.chip.ch c).stage k).coeff = ((s'.chip.ch c).stage k).coeff →
      ((s.chip.ch c).stage k).delay side = ((s'.chip.ch c).stage k).delay side →
      exec (.stageProcess c k x side) s = .next t → exec (.stageProcess c k x side) s' = .next t' →
      t.ret = t'.ret ∧ ((t.chip.ch c).stage k).delay side = ((t'.chip.ch c).stage k).delay side

/-- STAGE.PROCESS is not defined for input -32768: it is refused by name (U4 of 93_implementation_defined.md; log 6). -/
def Obligations.StageRefusesMinimumInput : Prop :=
  ∀ (c : Fin 8) (k : Fin 2) (side : Side) (s : State),
    exec (.stageProcess c k 0x8000 side) s = .refused .stageInputUndefined

/-- Ranges: from a delay line in [-32767, 32767] and an input in that range, the line and the result stay in it, whatever the
coefficients (R237, which the spec marks as derived). -/
def Obligations.StageKeepsRange : Prop :=
  ∀ (c : Fin 8) (k : Fin 2) (x : Sample) (side : Side) (s t : State),
    x ≠ 0x8000 → (((s.chip.ch c).stage k).delay side).InRange → exec (.stageProcess c k x side) s = .next t →
      (((t.chip.ch c).stage k).delay side).InRange ∧ ∃ y : Sample, t.ret = .sample y ∧ -32767 ≤ y.toInt ∧ y.toInt ≤ 32767

/-- The arithmetic primitives: the clamp and the division are odd, the division truncates toward zero, the narrowed value lies
in [-32767, 32767], and `wrap16` is congruent modulo 65536 (R7 to R9, R14, which rest on decisions D9, D11, D12). -/
def Obligations.ArithmeticPrimitives : Prop :=
  (∀ v : Int, sat (-v) = -sat v ∧ (narrow v).toInt = sat v ∧ -32767 ≤ sat v ∧ sat v ≤ 32767 ∧
    (-32767 ≤ v → v ≤ 32767 → sat v = v)) ∧
  (∀ a n : Int, 0 < n → tdiv (-a) n = -tdiv a n ∧ tdiv a n = a.tdiv n) ∧
  (∀ v : Int, (65536 : Int) ∣ (wrap16 v).toInt - v) ∧
  ∀ b : Byte, s8 b = if b.toNat < 128 then (b.toNat : Int) else (b.toNat : Int) - 256

/-! ### CH.RENDER -/

/-- CH.RENDER is the sequence of R260: the check, the scaled fetch, the accumulator, ten EG.RENDER calls in order, the coefficient
load, stage 0 then stage 1, the amplitude EG, the scaled output, and the cleared flag (R260 to R267, which rest on
decisions D11, D12, D15 and D16; MEM_SIZE is the model's 32768, log 2). -/
def Obligations.ChannelRenderIsItsMicroOperations : Prop :=
  ∀ (c : Fin 8) (side : Side) (s : State), ∃ t u y, exec (.chRender c side) s = .next t ∧
    chRenderScript c side s = some (u, y) ∧ t.chip = u.chip ∧ t.ret = .sample y ∧ t.queue = s.queue ∧ t.out = s.out

/-- The pointer and the accumulator of a CH.RENDER call: reset when the flag is set or the pointer is past loop_end, both modulo
32768; then, on the Right call alone, advance and reload when the accumulator is 0, else count down (R261, R263,
decisions D15 and D16; MEM_SIZE is the model's 32768, log 2). -/
def Obligations.ChannelPointerAndAccumulator : Prop :=
  ∀ (c : Fin 8) (side : Side) (s : State), ∃ t, exec (.chRender c side) s = .next t ∧
    let ch := s.chip.ch c
    let p := if ch.keyReset = true ∨ ch.loopEnd.toNat % 32768 < ch.ptr.toNat then ch.loopStart.toNat % 32768
             else ch.ptr.toNat
    (side = .left → (t.chip.ch c).ptr.toNat = p ∧ (t.chip.ch c).acc = ch.acc) ∧
    (side = .right → ch.acc = 0 → (t.chip.ch c).ptr.toNat = (p + 1) % 32768 ∧ (t.chip.ch c).acc = ch.accMax) ∧
    (side = .right → ch.acc ≠ 0 → (t.chip.ch c).ptr.toNat = p ∧ (t.chip.ch c).acc.toNat + 1 = ch.acc.toNat)

/-- Key-reset is one-shot: after any CH.RENDER call the channel's flag is 0 (R267). -/
def Obligations.ChannelKeyResetIsOneShot : Prop :=
  ∀ (c : Fin 8) (side : Side) (s : State), ∃ t, exec (.chRender c side) s = .next t ∧ (t.chip.ch c).keyReset = false

/-- What a CH.RENDER call leaves alone: the global block, the memory, the other channels, its own configuration, the other side's
delay lines, every EG it does not reference, and the interface (R260, R264, R266 and R234; R272 and R211, which the spec marks as
derived; R73 for the memory). -/
def Obligations.ChannelRenderLeavesTheRest : Prop :=
  ∀ (c : Fin 8) (side : Side) (s : State), ∃ t, exec (.chRender c side) s = .next t ∧
    t.chip.g = s.chip.g ∧ t.chip.mem = s.chip.mem ∧ (∀ j, j ≠ c → t.chip.ch j = s.chip.ch j) ∧
    Channel.sameConfig (s.chip.ch c) (t.chip.ch c) ∧
    (∀ k other, other ≠ side → ((t.chip.ch c).stage k).delay other = ((s.chip.ch c).stage k).delay other) ∧
    (∀ e : Fin 16, (s.chip.ch c).aeg.toNat ≠ e.val → (∀ j : Fin 10, (s.chip.ch c).feg[j].toNat ≠ e.val) →
      t.chip.eg e = s.chip.eg e) ∧
    t.queue = s.queue ∧ t.out = s.out

/-! ### FRAME and RENDER -/

/-- FRAME is the sequence of R301: the pre-scan, the marking, then for each channel in order the Left call and the Right call,
added into two 16-bit totals that wrap (R301 to R304; the wrap is decision D18). -/
def Obligations.FrameIsItsMicroOperations : Prop :=
  ∀ s : State, ∃ t u f, exec .frame s = .next t ∧
    frameScript [0, 1, 2, 3, 4, 5, 6, 7] (s.marked, { l := 0, r := 0 }) = some (u, f) ∧
    t.chip = u.chip ∧ t.ret = .stereo f ∧ t.queue = s.queue ∧ t.out = s.out

/-- RENDER(0) changes nothing; RENDER(n + 1) is a FRAME, whose pair is emitted, followed by RENDER(n); and every RENDER completes
(R300; frame count 0 is decision D28). That the pairs go to the field `out` is the model's choice (log 4). -/
def Obligations.RenderIsFramesInOrder : Prop :=
  ∀ s : State, exec (.render 0) s = .next s ∧
    (∀ n : BitVec 32, n.toNat + 1 < 2 ^ 32 → ∃ u f, exec .frame s = .next u ∧ u.ret = .stereo f ∧
      exec (.render (n + 1)) s = exec (.render n) { s with chip := u.chip, out := s.out ++ [f] }) ∧
    ∀ n : BitVec 32, ∃ t, exec (.render n) s = .next t ∧ t.queue = s.queue ∧ t.ret = s.ret

/-- RENDER(n) emits exactly n pairs, and the caller's buffer holds the left sample of pair i at index 2i and its right sample at
2i + 1 (R300, R305). That the pairs are emitted into `out` and the buffer is their interleaving is the model's choice (log 4). -/
def Obligations.BufferInterleavesPairs : Prop :=
  ∀ (n : BitVec 32) (s : State), ∃ t frames, exec (.render n) s = .next t ∧ t.out = s.out ++ frames ∧
    frames.length = n.toNat ∧ (interleave frames).length = 2 * n.toNat ∧
    ∀ (i : Nat) (f : StereoFrame), frames[i]? = some f →
      (interleave frames)[2 * i]? = some f.l ∧ (interleave frames)[2 * i + 1]? = some f.r

/-- RENDER(a + b) is RENDER(a) followed by RENDER(b), state and output alike (R308, which the spec marks as derived). -/
def Obligations.RenderSplits : Prop :=
  ∀ (a b : BitVec 32) (s : State), a.toNat + b.toNat < 2 ^ 32 →
    ∃ t, exec (.render a) s = .next t ∧ exec (.render (a + b)) s = exec (.render b) t

/-- One FRAME moves a referenced EG by exactly one consumed step, whatever the fan-out, and leaves an unreferenced EG exactly as it
was (R309, R303, R211; R309 is marked as derived). -/
def Obligations.FrameStepsEachReferencedEgOnce : Prop :=
  ∀ s : State, ∃ t, exec .frame s = .next t ∧ ∀ e : Fin 16,
    (s.chip.References e → ∃ u, exec (.egRender e false)
        { s with chip := s.chip.setEg e { s.chip.eg e with stepQueued := true } } = .next u ∧
      t.chip.eg e = u.chip.eg e) ∧
    (¬s.chip.References e → t.chip.eg e = s.chip.eg e)

/-- An EG that no channel references is never rendered, however many frames run: even a pending key-reset stays pending (R211,
which the spec marks as derived). -/
def Obligations.UnreferencedEgUntouched : Prop :=
  ∀ (n : BitVec 32) (s : State) (e : Fin 16), ¬s.chip.References e →
    ∃ t, exec (.render n) s = .next t ∧ t.chip.eg e = s.chip.eg e

/-- RENDER never changes the global block, the sample memory, or a configuration field of an EG or a channel (10_state.md sections
2, 4 and 6; 20_memory.md section 2). -/
def Obligations.RenderLeavesConfiguration : Prop :=
  ∀ (n : BitVec 32) (s : State), ∃ t, exec (.render n) s = .next t ∧ t.chip.g = s.chip.g ∧ t.chip.mem = s.chip.mem ∧
    (∀ e, Eg.sameConfig (s.chip.eg e) (t.chip.eg e)) ∧ ∀ c, Channel.sameConfig (s.chip.ch c) (t.chip.ch c)

/-- The first frame of the reset state: the pair is (0, 0), EG 0 takes one step, every other EG is untouched, and every channel's
pointer advances to 1 (R311, which the spec marks as derived; vector V1). It holds for every EXP_LUT. -/
def Obligations.FrameOfResetState : Prop :=
  ∃ t, exec .frame State.reset = .next t ∧ t.ret = .stereo { l := 0, r := 0 } ∧
    (t.chip.eg 0).currentEntry = 1 ∧ (t.chip.eg 0).stepQueued = false ∧
    (∀ e, e ≠ 0 → t.chip.eg e = State.reset.chip.eg e) ∧
    ∀ c, (t.chip.ch c).ptr = 1 ∧ (t.chip.ch c).acc = 0

/-! ### Time counted in frames -/

/-- Dwell: from a key-reset consumed on frame 1, with `key_on` 0 and stride S, frame m leaves the cursor at entry m / (S + 1) and
counter m mod (S + 1), up to the terminal value 40 on frame 40 × (S + 1) (R208, which the spec marks as derived). -/
def Obligations.EgDwellsStridePlusOneFrames : Prop :=
  ∀ (s : State) (e : Fin 16) (m : Nat), s.chip.References e → (s.chip.eg e).keyReset = true →
    (s.chip.eg e).keyOn = false → 1 ≤ m → m ≤ 40 * ((s.chip.eg e).stride.toNat + 1) →
    ∃ t, exec (.render (BitVec.ofNat 32 m)) s = .next t ∧
      (t.chip.eg e).currentEntry.toNat = m / ((s.chip.eg e).stride.toNat + 1) ∧
      (t.chip.eg e).currentStride.toNat = m % ((s.chip.eg e).stride.toNat + 1)

/-- The hold-point lock over RENDER: a cursor at or below the hold point never passes it while `key_on` stays set, however many
frames run (R209, which the spec marks as derived; 90_conflicts.md C11). -/
def Obligations.HoldPointNeverPassed : Prop :=
  ∀ (n : BitVec 32) (s : State) (e : Fin 16), (s.chip.eg e).keyOn = true →
    (s.chip.eg e).currentEntry.toNat ≤ (s.chip.eg e).holdPoint.toNat →
    ∃ t, exec (.render n) s = .next t ∧ (t.chip.eg e).currentEntry.toNat ≤ (s.chip.eg e).holdPoint.toNat

/-- The rate divider: from accumulator 0, inside the loop, the pointer advances on the first of acc_max + 1 frames and on no other
of them, and the accumulator counts down to 0 (R271, which the spec marks as derived; decision D15). Inside the loop means below
`loop_end mod MEM_SIZE`, MEM_SIZE being the model's 32768 (log 2). -/
def Obligations.PointerAdvancesOncePerPeriod : Prop :=
  ∀ (s : State) (c : Fin 8) (m : Nat), (s.chip.ch c).acc = 0 → (s.chip.ch c).keyReset = false →
    (s.chip.ch c).ptr.toNat + 1 ≤ (s.chip.ch c).loopEnd.toNat % 32768 →
    1 ≤ m → m ≤ (s.chip.ch c).accMax.toNat + 1 →
    ∃ t, exec (.render (BitVec.ofNat 32 m)) s = .next t ∧
      (t.chip.ch c).ptr.toNat = (s.chip.ch c).ptr.toNat + 1 ∧
      (t.chip.ch c).acc.toNat = (s.chip.ch c).accMax.toNat + 1 - m

/-! ### Whole-machine rules -/

/-- Every operation is total: there is no cause of an exception, a well-formed instruction always completes, and so does every
step (R330). The micro-operation STAGE.PROCESS, which is no operation of R11, is not well-formed at -32768. -/
def Obligations.EveryOperationCompletes : Prop :=
  (∀ _cause : Fault, False) ∧ (∀ (i : Instr) (s : State), i.wellFormed = true → ∃ t, exec i s = .next t) ∧
    ∀ s : State, ∃ t, step s = .next t

/-- No POKE changes a runtime field or produces an output sample (R158, R159, which the spec marks as derived). -/
def Obligations.PokeLeavesRuntimeState : Prop :=
  ∀ (s : State) (w : BitVec 24) (rest : List Transaction), s.queue = .poke w :: rest →
    ∃ t, step s = .next t ∧ (∀ e, Eg.sameRuntime (s.chip.eg e) (t.chip.eg e)) ∧
      (∀ c, Channel.sameRuntime (s.chip.ch c) (t.chip.ch c)) ∧ t.out = s.out ∧ t.ret = s.ret ∧ t.queue = rest

/-- Of all operations only G.WDATA and INIT change sample memory (20_memory.md section 2, 10_state.md section 8). -/
def Obligations.OnlyWdataAndInitWriteMemory : Prop :=
  ∀ (i : Instr) (s t : State), exec i s = .next t → (∀ v, i ≠ .gWdata v) → i ≠ .init → t.chip.mem = s.chip.mem

/-- G.CTRL influences nothing: on two states that differ in it alone, every well-formed instruction leaves two states that differ
at most in it, outputs and returned values included (R107, decision D2; U2 of 93_implementation_defined.md). -/
def Obligations.ControlByteInfluencesNothing : Prop :=
  ∀ (i : Instr) (s : State) (v : Byte), i.wellFormed = true →
    ∃ t w, exec i s = .next t ∧ exec i (s.withCtrl v) = .next (t.withCtrl w)

/-- The invariant holds after reset. -/
def Obligations.ResetSatisfiesInvariant : Prop := State.reset.Inv

/-- Every instruction keeps the invariant: memory canonical, cursors in 0..40, no queued step between operations, delay entries
in [-32767, 32767] (R25, R29, R307, which the spec marks as derived). -/
def Obligations.ExecKeepsInvariant : Prop :=
  ∀ (i : Instr) (s t : State), s.Inv → exec i s = .next t → t.Inv

/-- Every step keeps the invariant (R25, R29, R307, which the spec marks as derived). -/
def Obligations.StepKeepsInvariant : Prop := ∀ s t : State, s.Inv → step s = .next t → t.Inv

/-- The hold-point lock is kept by every instruction but EG.CTRL, EG.HOLD and INIT, micro-operations included: `key_on` set and the
cursor at or below the hold point stay so (R209, which the spec marks as derived; 90_conflicts.md C11; R24). -/
def Obligations.HoldLockKeptByEveryInstruction : Prop :=
  ∀ (i : Instr) (s t : State) (e : Fin 16), exec i s = .next t → (∀ v, i ≠ .egCtrl v) → (∀ v, i ≠ .egHold v) → i ≠ .init →
    (s.chip.eg e).HoldLocked → (t.chip.eg e).HoldLocked
end

