-- ==== Sys2Proof/Laws/Arith.lean ====
section
/-! SUPPORT. Laws of the arithmetic primitives (R7 to R9, R14). -/

namespace Sys2Proof.Machine

theorem s8_eq_toInt (b : Byte) : s8 b = b.toInt := by
  unfold s8
  rw [BitVec.toInt_eq_toNat_cond]
  split <;> split <;> omega

theorem s8_bounds (b : Byte) : -128 ≤ s8 b ∧ s8 b ≤ 127 := by
  have := b.isLt
  unfold s8
  split <;> omega

theorem sat_bounds (v : Int) : -32767 ≤ sat v ∧ sat v ≤ 32767 := by
  unfold sat; omega

theorem sat_eq_self {v : Int} (h1 : -32767 ≤ v) (h2 : v ≤ 32767) : sat v = v := by
  unfold sat; omega

theorem sat_neg (v : Int) : sat (-v) = -sat v := by
  unfold sat; omega

theorem tdiv_eq (a n : Int) : tdiv a n = a.tdiv n := by
  unfold tdiv
  split
  · rename_i h
    exact (Int.tdiv_eq_ediv_of_nonneg h).symm
  · rename_i h
    have h' : 0 ≤ -a := by omega
    rw [← Int.tdiv_eq_ediv_of_nonneg h', Int.neg_tdiv, Int.neg_neg]

theorem tdiv_neg (a n : Int) : tdiv (-a) n = -tdiv a n := by
  rw [tdiv_eq, tdiv_eq, Int.neg_tdiv]

theorem i16_toInt {v : Int} (h1 : -32768 ≤ v) (h2 : v ≤ 32767) : (i16 v).toInt = v := by
  unfold i16
  rw [BitVec.toInt_ofInt]
  exact Int.bmod_eq_of_le (by omega) (by omega)

@[simp] theorem i16_of_toInt (x : Sample) : i16 x.toInt = x := by
  simp [i16]

@[simp] theorem narrow_toInt (v : Int) : (narrow v).toInt = sat v := by
  have := sat_bounds v
  exact i16_toInt (by omega) (by omega)

/-- A value in [-32767, 32767] is not the pattern of -32768. -/
theorem ne_min_of_toInt {x : Sample} (h : -32767 ≤ x.toInt) : x ≠ 0x8000 := by
  rintro rfl
  revert h; decide

/-- A pattern other than that of -32768 lies in [-32767, 32767]. -/
theorem toInt_of_ne_min {x : Sample} (h : x ≠ 0x8000) : -32767 ≤ x.toInt ∧ x.toInt ≤ 32767 := by
  have h1 := BitVec.le_toInt x
  have h2 := @BitVec.toInt_lt 16 x
  have h3 : x.toInt ≠ -32768 := fun h3 => h (BitVec.eq_of_toInt_eq (by rw [h3]; decide))
  omega

@[simp] theorem narrow_ne_min (v : Int) : narrow v ≠ 0x8000 :=
  ne_min_of_toInt (by rw [narrow_toInt]; exact (sat_bounds v).1)

@[simp] theorem inSatRange_eq (x : Sample) : inSatRange x = true ↔ x ≠ 0x8000 := by
  simp [inSatRange]

theorem wrap16_add (a b : Sample) : wrap16 (a.toInt + b.toInt) = a + b := by
  apply BitVec.eq_of_toInt_eq
  simp [wrap16, BitVec.toInt_add]

@[simp] theorem memIndex_toNat (r : Reg16) : (memIndex r).toNat = r.toNat % 32768 := by
  simp [memIndex, Config.memSize]

@[simp] theorem nextPtr_toNat (p : Ptr) : (nextPtr p).toNat = (p.toNat + 1) % 32768 := by
  simp [nextPtr, Config.memSize]

theorem setLo_toNat (r : Reg16) (v : Byte) : (setLo r v).toNat = r.toNat / 256 * 256 + v.toNat := by
  have h1 := r.isLt
  have h2 := v.isLt
  simp only [setLo, BitVec.toNat_append, BitVec.extractLsb'_toNat, Nat.shiftRight_eq_div_pow]
  rw [← Nat.shiftLeft_add_eq_or_of_lt h2, Nat.shiftLeft_eq, Nat.mod_eq_of_lt (by omega)]

theorem setHi_toNat (r : Reg16) (v : Byte) : (setHi r v).toNat = v.toNat * 256 + r.toNat % 256 := by
  have h2 := v.isLt
  simp only [setHi, BitVec.toNat_append, BitVec.extractLsb'_toNat, Nat.shiftRight_zero]
  rw [← Nat.shiftLeft_add_eq_or_of_lt (by omega), Nat.shiftLeft_eq]

@[simp] theorem egIndex_toNat (v : Byte) : (egIndex v).toNat = v.toNat % 16 := by
  simp [egIndex]

end Sys2Proof.Machine
end

