-- ==== Sys2Proof/Laws/State.lean ====
section
/-! SUPPORT. One lemma for each field of each update, so that no later proof unfolds a record update. -/

namespace Sys2Proof.Machine

@[simp] theorem State.setChip_chip (s : State) (c : Chip) : (s.setChip c).chip = c := rfl
@[simp] theorem State.setChip_queue (s : State) (c : Chip) : (s.setChip c).queue = s.queue := rfl
@[simp] theorem State.setChip_out (s : State) (c : Chip) : (s.setChip c).out = s.out := rfl
@[simp] theorem State.setChip_ret (s : State) (c : Chip) : (s.setChip c).ret = s.ret := rfl

@[simp] theorem State.emit_chip (s : State) (fs : List StereoFrame) : (s.emit fs).chip = s.chip := rfl
@[simp] theorem State.emit_queue (s : State) (fs : List StereoFrame) : (s.emit fs).queue = s.queue := rfl
@[simp] theorem State.emit_out (s : State) (fs : List StereoFrame) : (s.emit fs).out = s.out ++ fs := rfl
@[simp] theorem State.emit_ret (s : State) (fs : List StereoFrame) : (s.emit fs).ret = s.ret := rfl

@[simp] theorem State.setRet_chip (s : State) (r : Returned) : (s.setRet r).chip = s.chip := rfl
@[simp] theorem State.setRet_queue (s : State) (r : Returned) : (s.setRet r).queue = s.queue := rfl
@[simp] theorem State.setRet_out (s : State) (r : Returned) : (s.setRet r).out = s.out := rfl
@[simp] theorem State.setRet_ret (s : State) (r : Returned) : (s.setRet r).ret = r := rfl

@[simp] theorem State.setQueue_chip (s : State) (q : List Transaction) : (s.setQueue q).chip = s.chip := rfl
@[simp] theorem State.setQueue_queue (s : State) (q : List Transaction) : (s.setQueue q).queue = q := rfl
@[simp] theorem State.setQueue_out (s : State) (q : List Transaction) : (s.setQueue q).out = s.out := rfl
@[simp] theorem State.setQueue_ret (s : State) (q : List Transaction) : (s.setQueue q).ret = s.ret := rfl

@[simp] theorem State.setChip_self (s : State) : s.setChip s.chip = s := rfl

@[simp] theorem Chip.setG_g (c : Chip) (g : Global) : (c.setG g).g = g := rfl
@[simp] theorem Chip.setG_mem (c : Chip) (g : Global) : (c.setG g).mem = c.mem := rfl
@[simp] theorem Chip.setG_egs (c : Chip) (g : Global) : (c.setG g).egs = c.egs := rfl
@[simp] theorem Chip.setG_chs (c : Chip) (g : Global) : (c.setG g).chs = c.chs := rfl

@[simp] theorem Chip.setMem_g (c : Chip) (m : Memory) : (c.setMem m).g = c.g := rfl
@[simp] theorem Chip.setMem_mem (c : Chip) (m : Memory) : (c.setMem m).mem = m := rfl
@[simp] theorem Chip.setMem_egs (c : Chip) (m : Memory) : (c.setMem m).egs = c.egs := rfl
@[simp] theorem Chip.setMem_chs (c : Chip) (m : Memory) : (c.setMem m).chs = c.chs := rfl

@[simp] theorem Chip.setEg_g (c : Chip) (e : Fin 16) (x : Eg) : (c.setEg e x).g = c.g := rfl
@[simp] theorem Chip.setEg_mem (c : Chip) (e : Fin 16) (x : Eg) : (c.setEg e x).mem = c.mem := rfl
@[simp] theorem Chip.setEg_chs (c : Chip) (e : Fin 16) (x : Eg) : (c.setEg e x).chs = c.chs := rfl
@[simp] theorem Chip.setEg_ch (c : Chip) (e : Fin 16) (x : Eg) (i : Fin 8) : (c.setEg e x).ch i = c.ch i := rfl

@[simp] theorem Chip.setCh_g (c : Chip) (k : Fin 8) (x : Channel) : (c.setCh k x).g = c.g := rfl
@[simp] theorem Chip.setCh_mem (c : Chip) (k : Fin 8) (x : Channel) : (c.setCh k x).mem = c.mem := rfl
@[simp] theorem Chip.setCh_egs (c : Chip) (k : Fin 8) (x : Channel) : (c.setCh k x).egs = c.egs := rfl
@[simp] theorem Chip.setCh_eg (c : Chip) (k : Fin 8) (x : Channel) (i : Fin 16) : (c.setCh k x).eg i = c.eg i := rfl

@[simp] theorem Chip.modifyCh_g (c : Chip) (k : Fin 8) (f : Channel → Channel) : (c.modifyCh k f).g = c.g := rfl
@[simp] theorem Chip.modifyCh_mem (c : Chip) (k : Fin 8) (f : Channel → Channel) : (c.modifyCh k f).mem = c.mem := rfl
@[simp] theorem Chip.modifyCh_egs (c : Chip) (k : Fin 8) (f : Channel → Channel) : (c.modifyCh k f).egs = c.egs := rfl
@[simp] theorem Chip.modifyCh_eg (c : Chip) (k : Fin 8) (f : Channel → Channel) (i : Fin 16) : (c.modifyCh k f).eg i = c.eg i := rfl

@[simp] theorem Chip.mapEgs_g (c : Chip) (sel : Fin 16 → Bool) (f : Eg → Eg) : (c.mapEgs sel f).g = c.g := rfl
@[simp] theorem Chip.mapEgs_mem (c : Chip) (sel : Fin 16 → Bool) (f : Eg → Eg) : (c.mapEgs sel f).mem = c.mem := rfl
@[simp] theorem Chip.mapEgs_chs (c : Chip) (sel : Fin 16 → Bool) (f : Eg → Eg) : (c.mapEgs sel f).chs = c.chs := rfl
@[simp] theorem Chip.mapEgs_ch (c : Chip) (sel : Fin 16 → Bool) (f : Eg → Eg) (i : Fin 8) : (c.mapEgs sel f).ch i = c.ch i := rfl

@[simp] theorem Chip.mapChs_g (c : Chip) (sel : Fin 8 → Bool) (f : Channel → Channel) : (c.mapChs sel f).g = c.g := rfl
@[simp] theorem Chip.mapChs_mem (c : Chip) (sel : Fin 8 → Bool) (f : Channel → Channel) : (c.mapChs sel f).mem = c.mem := rfl
@[simp] theorem Chip.mapChs_egs (c : Chip) (sel : Fin 8 → Bool) (f : Channel → Channel) : (c.mapChs sel f).egs = c.egs := rfl
@[simp] theorem Chip.mapChs_eg (c : Chip) (sel : Fin 8 → Bool) (f : Channel → Channel) (i : Fin 16) : (c.mapChs sel f).eg i = c.eg i := rfl

@[simp] theorem Chip.setG_eg (c : Chip) (g : Global) (e : Fin 16) : (c.setG g).eg e = c.eg e := rfl
@[simp] theorem Chip.setG_ch (c : Chip) (g : Global) (k : Fin 8) : (c.setG g).ch k = c.ch k := rfl
@[simp] theorem Chip.setMem_eg (c : Chip) (m : Memory) (e : Fin 16) : (c.setMem m).eg e = c.eg e := rfl
@[simp] theorem Chip.setMem_ch (c : Chip) (m : Memory) (k : Fin 8) : (c.setMem m).ch k = c.ch k := rfl

@[simp] theorem Eg.writeCtrl_multiplier (g : Eg) (v : Byte) : (Eg.writeCtrl v g).multiplier = g.multiplier := rfl
@[simp] theorem Eg.writeCtrl_holdPoint (g : Eg) (v : Byte) : (Eg.writeCtrl v g).holdPoint = g.holdPoint := rfl
@[simp] theorem Eg.writeCtrl_stride (g : Eg) (v : Byte) : (Eg.writeCtrl v g).stride = g.stride := rfl
@[simp] theorem Eg.writeCtrl_table (g : Eg) (v : Byte) : (Eg.writeCtrl v g).table = g.table := rfl
@[simp] theorem Eg.writeCtrl_keyReset (g : Eg) (v : Byte) : (Eg.writeCtrl v g).keyReset = v.getLsbD 0 := rfl
@[simp] theorem Eg.writeCtrl_keyOn (g : Eg) (v : Byte) : (Eg.writeCtrl v g).keyOn = v.getLsbD 1 := rfl
@[simp] theorem Eg.writeCtrl_currentEntry (g : Eg) (v : Byte) : (Eg.writeCtrl v g).currentEntry = g.currentEntry := rfl
@[simp] theorem Eg.writeCtrl_currentStride (g : Eg) (v : Byte) : (Eg.writeCtrl v g).currentStride = g.currentStride := rfl
@[simp] theorem Eg.writeCtrl_stepQueued (g : Eg) (v : Byte) : (Eg.writeCtrl v g).stepQueued = g.stepQueued := rfl

@[simp] theorem Eg.queueStep_multiplier (g : Eg) : (Eg.queueStep g).multiplier = g.multiplier := rfl
@[simp] theorem Eg.queueStep_holdPoint (g : Eg) : (Eg.queueStep g).holdPoint = g.holdPoint := rfl
@[simp] theorem Eg.queueStep_stride (g : Eg) : (Eg.queueStep g).stride = g.stride := rfl
@[simp] theorem Eg.queueStep_table (g : Eg) : (Eg.queueStep g).table = g.table := rfl
@[simp] theorem Eg.queueStep_keyReset (g : Eg) : (Eg.queueStep g).keyReset = g.keyReset := rfl
@[simp] theorem Eg.queueStep_keyOn (g : Eg) : (Eg.queueStep g).keyOn = g.keyOn := rfl
@[simp] theorem Eg.queueStep_currentEntry (g : Eg) : (Eg.queueStep g).currentEntry = g.currentEntry := rfl
@[simp] theorem Eg.queueStep_currentStride (g : Eg) : (Eg.queueStep g).currentStride = g.currentStride := rfl
@[simp] theorem Eg.queueStep_stepQueued (g : Eg) : (Eg.queueStep g).stepQueued = true := rfl

@[simp] theorem Eg.clearQueued_multiplier (g : Eg) : (Eg.clearQueued g).multiplier = g.multiplier := rfl
@[simp] theorem Eg.clearQueued_holdPoint (g : Eg) : (Eg.clearQueued g).holdPoint = g.holdPoint := rfl
@[simp] theorem Eg.clearQueued_stride (g : Eg) : (Eg.clearQueued g).stride = g.stride := rfl
@[simp] theorem Eg.clearQueued_table (g : Eg) : (Eg.clearQueued g).table = g.table := rfl
@[simp] theorem Eg.clearQueued_keyReset (g : Eg) : (Eg.clearQueued g).keyReset = g.keyReset := rfl
@[simp] theorem Eg.clearQueued_keyOn (g : Eg) : (Eg.clearQueued g).keyOn = g.keyOn := rfl
@[simp] theorem Eg.clearQueued_currentEntry (g : Eg) : (Eg.clearQueued g).currentEntry = g.currentEntry := rfl
@[simp] theorem Eg.clearQueued_currentStride (g : Eg) : (Eg.clearQueued g).currentStride = g.currentStride := rfl
@[simp] theorem Eg.clearQueued_stepQueued (g : Eg) : (Eg.clearQueued g).stepQueued = false := rfl

@[simp] theorem Eg.writeMul_multiplier (g : Eg) (v : Byte) : (Eg.writeMul v g).multiplier = v := rfl
@[simp] theorem Eg.writeMul_holdPoint (g : Eg) (v : Byte) : (Eg.writeMul v g).holdPoint = g.holdPoint := rfl
@[simp] theorem Eg.writeMul_stride (g : Eg) (v : Byte) : (Eg.writeMul v g).stride = g.stride := rfl
@[simp] theorem Eg.writeMul_table (g : Eg) (v : Byte) : (Eg.writeMul v g).table = g.table := rfl
@[simp] theorem Eg.writeMul_keyReset (g : Eg) (v : Byte) : (Eg.writeMul v g).keyReset = g.keyReset := rfl
@[simp] theorem Eg.writeMul_keyOn (g : Eg) (v : Byte) : (Eg.writeMul v g).keyOn = g.keyOn := rfl
@[simp] theorem Eg.writeMul_currentEntry (g : Eg) (v : Byte) : (Eg.writeMul v g).currentEntry = g.currentEntry := rfl
@[simp] theorem Eg.writeMul_currentStride (g : Eg) (v : Byte) : (Eg.writeMul v g).currentStride = g.currentStride := rfl
@[simp] theorem Eg.writeMul_stepQueued (g : Eg) (v : Byte) : (Eg.writeMul v g).stepQueued = g.stepQueued := rfl

@[simp] theorem Eg.writeHold_multiplier (g : Eg) (v : Byte) : (Eg.writeHold v g).multiplier = g.multiplier := rfl
@[simp] theorem Eg.writeHold_holdPoint (g : Eg) (v : Byte) : (Eg.writeHold v g).holdPoint = v := rfl
@[simp] theorem Eg.writeHold_stride (g : Eg) (v : Byte) : (Eg.writeHold v g).stride = g.stride := rfl
@[simp] theorem Eg.writeHold_table (g : Eg) (v : Byte) : (Eg.writeHold v g).table = g.table := rfl
@[simp] theorem Eg.writeHold_keyReset (g : Eg) (v : Byte) : (Eg.writeHold v g).keyReset = g.keyReset := rfl
@[simp] theorem Eg.writeHold_keyOn (g : Eg) (v : Byte) : (Eg.writeHold v g).keyOn = g.keyOn := rfl
@[simp] theorem Eg.writeHold_currentEntry (g : Eg) (v : Byte) : (Eg.writeHold v g).currentEntry = g.currentEntry := rfl
@[simp] theorem Eg.writeHold_currentStride (g : Eg) (v : Byte) : (Eg.writeHold v g).currentStride = g.currentStride := rfl
@[simp] theorem Eg.writeHold_stepQueued (g : Eg) (v : Byte) : (Eg.writeHold v g).stepQueued = g.stepQueued := rfl

@[simp] theorem Eg.writeStride_multiplier (g : Eg) (v : Byte) : (Eg.writeStride v g).multiplier = g.multiplier := rfl
@[simp] theorem Eg.writeStride_holdPoint (g : Eg) (v : Byte) : (Eg.writeStride v g).holdPoint = g.holdPoint := rfl
@[simp] theorem Eg.writeStride_stride (g : Eg) (v : Byte) : (Eg.writeStride v g).stride = v := rfl
@[simp] theorem Eg.writeStride_table (g : Eg) (v : Byte) : (Eg.writeStride v g).table = g.table := rfl
@[simp] theorem Eg.writeStride_keyReset (g : Eg) (v : Byte) : (Eg.writeStride v g).keyReset = g.keyReset := rfl
@[simp] theorem Eg.writeStride_keyOn (g : Eg) (v : Byte) : (Eg.writeStride v g).keyOn = g.keyOn := rfl
@[simp] theorem Eg.writeStride_currentEntry (g : Eg) (v : Byte) : (Eg.writeStride v g).currentEntry = g.currentEntry := rfl
@[simp] theorem Eg.writeStride_currentStride (g : Eg) (v : Byte) : (Eg.writeStride v g).currentStride = g.currentStride := rfl
@[simp] theorem Eg.writeStride_stepQueued (g : Eg) (v : Byte) : (Eg.writeStride v g).stepQueued = g.stepQueued := rfl

@[simp] theorem Eg.writeTable_multiplier (g : Eg) (n : Fin 40) (v : Byte) : (Eg.writeTable n v g).multiplier = g.multiplier := rfl
@[simp] theorem Eg.writeTable_holdPoint (g : Eg) (n : Fin 40) (v : Byte) : (Eg.writeTable n v g).holdPoint = g.holdPoint := rfl
@[simp] theorem Eg.writeTable_stride (g : Eg) (n : Fin 40) (v : Byte) : (Eg.writeTable n v g).stride = g.stride := rfl
@[simp] theorem Eg.writeTable_table (g : Eg) (n : Fin 40) (v : Byte) : (Eg.writeTable n v g).table = g.table.set n v := rfl
@[simp] theorem Eg.writeTable_keyReset (g : Eg) (n : Fin 40) (v : Byte) : (Eg.writeTable n v g).keyReset = g.keyReset := rfl
@[simp] theorem Eg.writeTable_keyOn (g : Eg) (n : Fin 40) (v : Byte) : (Eg.writeTable n v g).keyOn = g.keyOn := rfl
@[simp] theorem Eg.writeTable_currentEntry (g : Eg) (n : Fin 40) (v : Byte) : (Eg.writeTable n v g).currentEntry = g.currentEntry := rfl
@[simp] theorem Eg.writeTable_currentStride (g : Eg) (n : Fin 40) (v : Byte) : (Eg.writeTable n v g).currentStride = g.currentStride := rfl
@[simp] theorem Eg.writeTable_stepQueued (g : Eg) (n : Fin 40) (v : Byte) : (Eg.writeTable n v g).stepQueued = g.stepQueued := rfl

@[simp] theorem Channel.writeCtrl_keyReset (ch : Channel) (v : Byte) : (Channel.writeCtrl v ch).keyReset = v.getLsbD 0 := rfl
@[simp] theorem Channel.writeCtrl_volL (ch : Channel) (v : Byte) : (Channel.writeCtrl v ch).volL = ch.volL := rfl
@[simp] theorem Channel.writeCtrl_volR (ch : Channel) (v : Byte) : (Channel.writeCtrl v ch).volR = ch.volR := rfl
@[simp] theorem Channel.writeCtrl_accMax (ch : Channel) (v : Byte) : (Channel.writeCtrl v ch).accMax = ch.accMax := rfl
@[simp] theorem Channel.writeCtrl_aeg (ch : Channel) (v : Byte) : (Channel.writeCtrl v ch).aeg = ch.aeg := rfl
@[simp] theorem Channel.writeCtrl_feg (ch : Channel) (v : Byte) : (Channel.writeCtrl v ch).feg = ch.feg := rfl
@[simp] theorem Channel.writeCtrl_loopStart (ch : Channel) (v : Byte) : (Channel.writeCtrl v ch).loopStart = ch.loopStart := rfl
@[simp] theorem Channel.writeCtrl_loopEnd (ch : Channel) (v : Byte) : (Channel.writeCtrl v ch).loopEnd = ch.loopEnd := rfl
@[simp] theorem Channel.writeCtrl_acc (ch : Channel) (v : Byte) : (Channel.writeCtrl v ch).acc = ch.acc := rfl
@[simp] theorem Channel.writeCtrl_ptr (ch : Channel) (v : Byte) : (Channel.writeCtrl v ch).ptr = ch.ptr := rfl
@[simp] theorem Channel.writeCtrl_st (ch : Channel) (v : Byte) : (Channel.writeCtrl v ch).st = ch.st := rfl

@[simp] theorem Channel.clearKeyReset_keyReset (ch : Channel) (kr : Bool) : (Channel.clearKeyReset kr ch).keyReset = (if kr then false else ch.keyReset) := rfl
@[simp] theorem Channel.clearKeyReset_volL (ch : Channel) (kr : Bool) : (Channel.clearKeyReset kr ch).volL = ch.volL := rfl
@[simp] theorem Channel.clearKeyReset_volR (ch : Channel) (kr : Bool) : (Channel.clearKeyReset kr ch).volR = ch.volR := rfl
@[simp] theorem Channel.clearKeyReset_accMax (ch : Channel) (kr : Bool) : (Channel.clearKeyReset kr ch).accMax = ch.accMax := rfl
@[simp] theorem Channel.clearKeyReset_aeg (ch : Channel) (kr : Bool) : (Channel.clearKeyReset kr ch).aeg = ch.aeg := rfl
@[simp] theorem Channel.clearKeyReset_feg (ch : Channel) (kr : Bool) : (Channel.clearKeyReset kr ch).feg = ch.feg := rfl
@[simp] theorem Channel.clearKeyReset_loopStart (ch : Channel) (kr : Bool) : (Channel.clearKeyReset kr ch).loopStart = ch.loopStart := rfl
@[simp] theorem Channel.clearKeyReset_loopEnd (ch : Channel) (kr : Bool) : (Channel.clearKeyReset kr ch).loopEnd = ch.loopEnd := rfl
@[simp] theorem Channel.clearKeyReset_acc (ch : Channel) (kr : Bool) : (Channel.clearKeyReset kr ch).acc = ch.acc := rfl
@[simp] theorem Channel.clearKeyReset_ptr (ch : Channel) (kr : Bool) : (Channel.clearKeyReset kr ch).ptr = ch.ptr := rfl
@[simp] theorem Channel.clearKeyReset_st (ch : Channel) (kr : Bool) : (Channel.clearKeyReset kr ch).st = ch.st := rfl

@[simp] theorem Channel.writeVolL_keyReset (ch : Channel) (v : Byte) : (Channel.writeVolL v ch).keyReset = ch.keyReset := rfl
@[simp] theorem Channel.writeVolL_volL (ch : Channel) (v : Byte) : (Channel.writeVolL v ch).volL = v := rfl
@[simp] theorem Channel.writeVolL_volR (ch : Channel) (v : Byte) : (Channel.writeVolL v ch).volR = ch.volR := rfl
@[simp] theorem Channel.writeVolL_accMax (ch : Channel) (v : Byte) : (Channel.writeVolL v ch).accMax = ch.accMax := rfl
@[simp] theorem Channel.writeVolL_aeg (ch : Channel) (v : Byte) : (Channel.writeVolL v ch).aeg = ch.aeg := rfl
@[simp] theorem Channel.writeVolL_feg (ch : Channel) (v : Byte) : (Channel.writeVolL v ch).feg = ch.feg := rfl
@[simp] theorem Channel.writeVolL_loopStart (ch : Channel) (v : Byte) : (Channel.writeVolL v ch).loopStart = ch.loopStart := rfl
@[simp] theorem Channel.writeVolL_loopEnd (ch : Channel) (v : Byte) : (Channel.writeVolL v ch).loopEnd = ch.loopEnd := rfl
@[simp] theorem Channel.writeVolL_acc (ch : Channel) (v : Byte) : (Channel.writeVolL v ch).acc = ch.acc := rfl
@[simp] theorem Channel.writeVolL_ptr (ch : Channel) (v : Byte) : (Channel.writeVolL v ch).ptr = ch.ptr := rfl
@[simp] theorem Channel.writeVolL_st (ch : Channel) (v : Byte) : (Channel.writeVolL v ch).st = ch.st := rfl

@[simp] theorem Channel.writeVolR_keyReset (ch : Channel) (v : Byte) : (Channel.writeVolR v ch).keyReset = ch.keyReset := rfl
@[simp] theorem Channel.writeVolR_volL (ch : Channel) (v : Byte) : (Channel.writeVolR v ch).volL = ch.volL := rfl
@[simp] theorem Channel.writeVolR_volR (ch : Channel) (v : Byte) : (Channel.writeVolR v ch).volR = v := rfl
@[simp] theorem Channel.writeVolR_accMax (ch : Channel) (v : Byte) : (Channel.writeVolR v ch).accMax = ch.accMax := rfl
@[simp] theorem Channel.writeVolR_aeg (ch : Channel) (v : Byte) : (Channel.writeVolR v ch).aeg = ch.aeg := rfl
@[simp] theorem Channel.writeVolR_feg (ch : Channel) (v : Byte) : (Channel.writeVolR v ch).feg = ch.feg := rfl
@[simp] theorem Channel.writeVolR_loopStart (ch : Channel) (v : Byte) : (Channel.writeVolR v ch).loopStart = ch.loopStart := rfl
@[simp] theorem Channel.writeVolR_loopEnd (ch : Channel) (v : Byte) : (Channel.writeVolR v ch).loopEnd = ch.loopEnd := rfl
@[simp] theorem Channel.writeVolR_acc (ch : Channel) (v : Byte) : (Channel.writeVolR v ch).acc = ch.acc := rfl
@[simp] theorem Channel.writeVolR_ptr (ch : Channel) (v : Byte) : (Channel.writeVolR v ch).ptr = ch.ptr := rfl
@[simp] theorem Channel.writeVolR_st (ch : Channel) (v : Byte) : (Channel.writeVolR v ch).st = ch.st := rfl

@[simp] theorem Channel.writeAccMax_keyReset (ch : Channel) (v : Byte) : (Channel.writeAccMax v ch).keyReset = ch.keyReset := rfl
@[simp] theorem Channel.writeAccMax_volL (ch : Channel) (v : Byte) : (Channel.writeAccMax v ch).volL = ch.volL := rfl
@[simp] theorem Channel.writeAccMax_volR (ch : Channel) (v : Byte) : (Channel.writeAccMax v ch).volR = ch.volR := rfl
@[simp] theorem Channel.writeAccMax_accMax (ch : Channel) (v : Byte) : (Channel.writeAccMax v ch).accMax = v := rfl
@[simp] theorem Channel.writeAccMax_aeg (ch : Channel) (v : Byte) : (Channel.writeAccMax v ch).aeg = ch.aeg := rfl
@[simp] theorem Channel.writeAccMax_feg (ch : Channel) (v : Byte) : (Channel.writeAccMax v ch).feg = ch.feg := rfl
@[simp] theorem Channel.writeAccMax_loopStart (ch : Channel) (v : Byte) : (Channel.writeAccMax v ch).loopStart = ch.loopStart := rfl
@[simp] theorem Channel.writeAccMax_loopEnd (ch : Channel) (v : Byte) : (Channel.writeAccMax v ch).loopEnd = ch.loopEnd := rfl
@[simp] theorem Channel.writeAccMax_acc (ch : Channel) (v : Byte) : (Channel.writeAccMax v ch).acc = ch.acc := rfl
@[simp] theorem Channel.writeAccMax_ptr (ch : Channel) (v : Byte) : (Channel.writeAccMax v ch).ptr = ch.ptr := rfl
@[simp] theorem Channel.writeAccMax_st (ch : Channel) (v : Byte) : (Channel.writeAccMax v ch).st = ch.st := rfl

@[simp] theorem Channel.writeAeg_keyReset (ch : Channel) (v : Byte) : (Channel.writeAeg v ch).keyReset = ch.keyReset := rfl
@[simp] theorem Channel.writeAeg_volL (ch : Channel) (v : Byte) : (Channel.writeAeg v ch).volL = ch.volL := rfl
@[simp] theorem Channel.writeAeg_volR (ch : Channel) (v : Byte) : (Channel.writeAeg v ch).volR = ch.volR := rfl
@[simp] theorem Channel.writeAeg_accMax (ch : Channel) (v : Byte) : (Channel.writeAeg v ch).accMax = ch.accMax := rfl
@[simp] theorem Channel.writeAeg_aeg (ch : Channel) (v : Byte) : (Channel.writeAeg v ch).aeg = egIndex v := rfl
@[simp] theorem Channel.writeAeg_feg (ch : Channel) (v : Byte) : (Channel.writeAeg v ch).feg = ch.feg := rfl
@[simp] theorem Channel.writeAeg_loopStart (ch : Channel) (v : Byte) : (Channel.writeAeg v ch).loopStart = ch.loopStart := rfl
@[simp] theorem Channel.writeAeg_loopEnd (ch : Channel) (v : Byte) : (Channel.writeAeg v ch).loopEnd = ch.loopEnd := rfl
@[simp] theorem Channel.writeAeg_acc (ch : Channel) (v : Byte) : (Channel.writeAeg v ch).acc = ch.acc := rfl
@[simp] theorem Channel.writeAeg_ptr (ch : Channel) (v : Byte) : (Channel.writeAeg v ch).ptr = ch.ptr := rfl
@[simp] theorem Channel.writeAeg_st (ch : Channel) (v : Byte) : (Channel.writeAeg v ch).st = ch.st := rfl

@[simp] theorem Channel.writeFeg_keyReset (ch : Channel) (k : Fin 10) (v : Byte) : (Channel.writeFeg k v ch).keyReset = ch.keyReset := rfl
@[simp] theorem Channel.writeFeg_volL (ch : Channel) (k : Fin 10) (v : Byte) : (Channel.writeFeg k v ch).volL = ch.volL := rfl
@[simp] theorem Channel.writeFeg_volR (ch : Channel) (k : Fin 10) (v : Byte) : (Channel.writeFeg k v ch).volR = ch.volR := rfl
@[simp] theorem Channel.writeFeg_accMax (ch : Channel) (k : Fin 10) (v : Byte) : (Channel.writeFeg k v ch).accMax = ch.accMax := rfl
@[simp] theorem Channel.writeFeg_aeg (ch : Channel) (k : Fin 10) (v : Byte) : (Channel.writeFeg k v ch).aeg = ch.aeg := rfl
@[simp] theorem Channel.writeFeg_feg (ch : Channel) (k : Fin 10) (v : Byte) : (Channel.writeFeg k v ch).feg = ch.feg.set k (egIndex v) := rfl
@[simp] theorem Channel.writeFeg_loopStart (ch : Channel) (k : Fin 10) (v : Byte) : (Channel.writeFeg k v ch).loopStart = ch.loopStart := rfl
@[simp] theorem Channel.writeFeg_loopEnd (ch : Channel) (k : Fin 10) (v : Byte) : (Channel.writeFeg k v ch).loopEnd = ch.loopEnd := rfl
@[simp] theorem Channel.writeFeg_acc (ch : Channel) (k : Fin 10) (v : Byte) : (Channel.writeFeg k v ch).acc = ch.acc := rfl
@[simp] theorem Channel.writeFeg_ptr (ch : Channel) (k : Fin 10) (v : Byte) : (Channel.writeFeg k v ch).ptr = ch.ptr := rfl
@[simp] theorem Channel.writeFeg_st (ch : Channel) (k : Fin 10) (v : Byte) : (Channel.writeFeg k v ch).st = ch.st := rfl

@[simp] theorem Channel.writeLoopStartLo_keyReset (ch : Channel) (v : Byte) : (Channel.writeLoopStartLo v ch).keyReset = ch.keyReset := rfl
@[simp] theorem Channel.writeLoopStartLo_volL (ch : Channel) (v : Byte) : (Channel.writeLoopStartLo v ch).volL = ch.volL := rfl
@[simp] theorem Channel.writeLoopStartLo_volR (ch : Channel) (v : Byte) : (Channel.writeLoopStartLo v ch).volR = ch.volR := rfl
@[simp] theorem Channel.writeLoopStartLo_accMax (ch : Channel) (v : Byte) : (Channel.writeLoopStartLo v ch).accMax = ch.accMax := rfl
@[simp] theorem Channel.writeLoopStartLo_aeg (ch : Channel) (v : Byte) : (Channel.writeLoopStartLo v ch).aeg = ch.aeg := rfl
@[simp] theorem Channel.writeLoopStartLo_feg (ch : Channel) (v : Byte) : (Channel.writeLoopStartLo v ch).feg = ch.feg := rfl
@[simp] theorem Channel.writeLoopStartLo_loopStart (ch : Channel) (v : Byte) : (Channel.writeLoopStartLo v ch).loopStart = setLo ch.loopStart v := rfl
@[simp] theorem Channel.writeLoopStartLo_loopEnd (ch : Channel) (v : Byte) : (Channel.writeLoopStartLo v ch).loopEnd = ch.loopEnd := rfl
@[simp] theorem Channel.writeLoopStartLo_acc (ch : Channel) (v : Byte) : (Channel.writeLoopStartLo v ch).acc = ch.acc := rfl
@[simp] theorem Channel.writeLoopStartLo_ptr (ch : Channel) (v : Byte) : (Channel.writeLoopStartLo v ch).ptr = ch.ptr := rfl
@[simp] theorem Channel.writeLoopStartLo_st (ch : Channel) (v : Byte) : (Channel.writeLoopStartLo v ch).st = ch.st := rfl

@[simp] theorem Channel.writeLoopStartHi_keyReset (ch : Channel) (v : Byte) : (Channel.writeLoopStartHi v ch).keyReset = ch.keyReset := rfl
@[simp] theorem Channel.writeLoopStartHi_volL (ch : Channel) (v : Byte) : (Channel.writeLoopStartHi v ch).volL = ch.volL := rfl
@[simp] theorem Channel.writeLoopStartHi_volR (ch : Channel) (v : Byte) : (Channel.writeLoopStartHi v ch).volR = ch.volR := rfl
@[simp] theorem Channel.writeLoopStartHi_accMax (ch : Channel) (v : Byte) : (Channel.writeLoopStartHi v ch).accMax = ch.accMax := rfl
@[simp] theorem Channel.writeLoopStartHi_aeg (ch : Channel) (v : Byte) : (Channel.writeLoopStartHi v ch).aeg = ch.aeg := rfl
@[simp] theorem Channel.writeLoopStartHi_feg (ch : Channel) (v : Byte) : (Channel.writeLoopStartHi v ch).feg = ch.feg := rfl
@[simp] theorem Channel.writeLoopStartHi_loopStart (ch : Channel) (v : Byte) : (Channel.writeLoopStartHi v ch).loopStart = setHi ch.loopStart v := rfl
@[simp] theorem Channel.writeLoopStartHi_loopEnd (ch : Channel) (v : Byte) : (Channel.writeLoopStartHi v ch).loopEnd = ch.loopEnd := rfl
@[simp] theorem Channel.writeLoopStartHi_acc (ch : Channel) (v : Byte) : (Channel.writeLoopStartHi v ch).acc = ch.acc := rfl
@[simp] theorem Channel.writeLoopStartHi_ptr (ch : Channel) (v : Byte) : (Channel.writeLoopStartHi v ch).ptr = ch.ptr := rfl
@[simp] theorem Channel.writeLoopStartHi_st (ch : Channel) (v : Byte) : (Channel.writeLoopStartHi v ch).st = ch.st := rfl

@[simp] theorem Channel.writeLoopEndLo_keyReset (ch : Channel) (v : Byte) : (Channel.writeLoopEndLo v ch).keyReset = ch.keyReset := rfl
@[simp] theorem Channel.writeLoopEndLo_volL (ch : Channel) (v : Byte) : (Channel.writeLoopEndLo v ch).volL = ch.volL := rfl
@[simp] theorem Channel.writeLoopEndLo_volR (ch : Channel) (v : Byte) : (Channel.writeLoopEndLo v ch).volR = ch.volR := rfl
@[simp] theorem Channel.writeLoopEndLo_accMax (ch : Channel) (v : Byte) : (Channel.writeLoopEndLo v ch).accMax = ch.accMax := rfl
@[simp] theorem Channel.writeLoopEndLo_aeg (ch : Channel) (v : Byte) : (Channel.writeLoopEndLo v ch).aeg = ch.aeg := rfl
@[simp] theorem Channel.writeLoopEndLo_feg (ch : Channel) (v : Byte) : (Channel.writeLoopEndLo v ch).feg = ch.feg := rfl
@[simp] theorem Channel.writeLoopEndLo_loopStart (ch : Channel) (v : Byte) : (Channel.writeLoopEndLo v ch).loopStart = ch.loopStart := rfl
@[simp] theorem Channel.writeLoopEndLo_loopEnd (ch : Channel) (v : Byte) : (Channel.writeLoopEndLo v ch).loopEnd = setLo ch.loopEnd v := rfl
@[simp] theorem Channel.writeLoopEndLo_acc (ch : Channel) (v : Byte) : (Channel.writeLoopEndLo v ch).acc = ch.acc := rfl
@[simp] theorem Channel.writeLoopEndLo_ptr (ch : Channel) (v : Byte) : (Channel.writeLoopEndLo v ch).ptr = ch.ptr := rfl
@[simp] theorem Channel.writeLoopEndLo_st (ch : Channel) (v : Byte) : (Channel.writeLoopEndLo v ch).st = ch.st := rfl

@[simp] theorem Channel.writeLoopEndHi_keyReset (ch : Channel) (v : Byte) : (Channel.writeLoopEndHi v ch).keyReset = ch.keyReset := rfl
@[simp] theorem Channel.writeLoopEndHi_volL (ch : Channel) (v : Byte) : (Channel.writeLoopEndHi v ch).volL = ch.volL := rfl
@[simp] theorem Channel.writeLoopEndHi_volR (ch : Channel) (v : Byte) : (Channel.writeLoopEndHi v ch).volR = ch.volR := rfl
@[simp] theorem Channel.writeLoopEndHi_accMax (ch : Channel) (v : Byte) : (Channel.writeLoopEndHi v ch).accMax = ch.accMax := rfl
@[simp] theorem Channel.writeLoopEndHi_aeg (ch : Channel) (v : Byte) : (Channel.writeLoopEndHi v ch).aeg = ch.aeg := rfl
@[simp] theorem Channel.writeLoopEndHi_feg (ch : Channel) (v : Byte) : (Channel.writeLoopEndHi v ch).feg = ch.feg := rfl
@[simp] theorem Channel.writeLoopEndHi_loopStart (ch : Channel) (v : Byte) : (Channel.writeLoopEndHi v ch).loopStart = ch.loopStart := rfl
@[simp] theorem Channel.writeLoopEndHi_loopEnd (ch : Channel) (v : Byte) : (Channel.writeLoopEndHi v ch).loopEnd = setHi ch.loopEnd v := rfl
@[simp] theorem Channel.writeLoopEndHi_acc (ch : Channel) (v : Byte) : (Channel.writeLoopEndHi v ch).acc = ch.acc := rfl
@[simp] theorem Channel.writeLoopEndHi_ptr (ch : Channel) (v : Byte) : (Channel.writeLoopEndHi v ch).ptr = ch.ptr := rfl
@[simp] theorem Channel.writeLoopEndHi_st (ch : Channel) (v : Byte) : (Channel.writeLoopEndHi v ch).st = ch.st := rfl

@[simp] theorem Channel.setStage_keyReset (ch : Channel) (k : Fin 2) (x : Stage) : (ch.setStage k x).keyReset = ch.keyReset := rfl
@[simp] theorem Channel.setStage_volL (ch : Channel) (k : Fin 2) (x : Stage) : (ch.setStage k x).volL = ch.volL := rfl
@[simp] theorem Channel.setStage_volR (ch : Channel) (k : Fin 2) (x : Stage) : (ch.setStage k x).volR = ch.volR := rfl
@[simp] theorem Channel.setStage_accMax (ch : Channel) (k : Fin 2) (x : Stage) : (ch.setStage k x).accMax = ch.accMax := rfl
@[simp] theorem Channel.setStage_aeg (ch : Channel) (k : Fin 2) (x : Stage) : (ch.setStage k x).aeg = ch.aeg := rfl
@[simp] theorem Channel.setStage_feg (ch : Channel) (k : Fin 2) (x : Stage) : (ch.setStage k x).feg = ch.feg := rfl
@[simp] theorem Channel.setStage_loopStart (ch : Channel) (k : Fin 2) (x : Stage) : (ch.setStage k x).loopStart = ch.loopStart := rfl
@[simp] theorem Channel.setStage_loopEnd (ch : Channel) (k : Fin 2) (x : Stage) : (ch.setStage k x).loopEnd = ch.loopEnd := rfl
@[simp] theorem Channel.setStage_acc (ch : Channel) (k : Fin 2) (x : Stage) : (ch.setStage k x).acc = ch.acc := rfl
@[simp] theorem Channel.setStage_ptr (ch : Channel) (k : Fin 2) (x : Stage) : (ch.setStage k x).ptr = ch.ptr := rfl

@[simp] theorem Chip.setEg_eg (c : Chip) (e i : Fin 16) (x : Eg) :
    (c.setEg e x).eg i = if i = e then x else c.eg i := by
  simp [Chip.setEg, Chip.eg, Vector.getElem_set, Fin.ext_iff, eq_comm]

@[simp] theorem Chip.setCh_ch (c : Chip) (k i : Fin 8) (x : Channel) :
    (c.setCh k x).ch i = if i = k then x else c.ch i := by
  simp [Chip.setCh, Chip.ch, Vector.getElem_set, Fin.ext_iff, eq_comm]

@[simp] theorem Chip.modifyCh_ch (c : Chip) (k i : Fin 8) (f : Channel → Channel) :
    (c.modifyCh k f).ch i = if i = k then f (c.ch i) else c.ch i := by
  simp only [Chip.modifyCh, Chip.setCh_ch]
  split <;> simp_all

@[simp] theorem fanOut_getElem {α : Type} {n : Nat} (sel : Fin n → Bool) (f : α → α) (v : Vector α n) (i : Fin n) :
    (fanOut sel f v)[i] = if sel i then f v[i] else v[i] := by
  simp [fanOut]

@[simp] theorem Chip.mapEgs_eg (c : Chip) (sel : Fin 16 → Bool) (f : Eg → Eg) (e : Fin 16) :
    (c.mapEgs sel f).eg e = if sel e then f (c.eg e) else c.eg e :=
  fanOut_getElem sel f c.egs e

@[simp] theorem Chip.mapChs_ch (c : Chip) (sel : Fin 8 → Bool) (f : Channel → Channel) (k : Fin 8) :
    (c.mapChs sel f).ch k = if sel k then f (c.ch k) else c.ch k :=
  fanOut_getElem sel f c.chs k

@[simp] theorem Channel.setStage_stage (ch : Channel) (k i : Fin 2) (x : Stage) :
    (ch.setStage k x).stage i = if i = k then x else ch.stage i := by
  simp [Channel.setStage, Channel.stage, Vector.getElem_set, Fin.ext_iff, eq_comm]

@[simp] theorem Stage.setDelay_coeff (x : Stage) (side : Side) (d : DelayLine) : (x.setDelay side d).coeff = x.coeff := by
  cases side <;> rfl

@[simp] theorem Stage.setDelay_delay (x : Stage) (side i : Side) (d : DelayLine) :
    (x.setDelay side d).delay i = if i = side then d else x.delay i := by
  cases side <;> cases i <;> rfl

/-- Two chips with equal units, global block and memory are equal. -/
theorem Chip.ext_units {a b : Chip} (hg : a.g = b.g) (hm : a.mem = b.mem) (he : ∀ e, a.eg e = b.eg e)
    (hc : ∀ k, a.ch k = b.ch k) : a = b := by
  obtain ⟨g, m, es, cs⟩ := a
  obtain ⟨g', m', es', cs'⟩ := b
  simp only at hg hm
  subst hg hm
  have h1 : es = es' := Vector.ext fun i hi => he ⟨i, hi⟩
  have h2 : cs = cs' := Vector.ext fun i hi => hc ⟨i, hi⟩
  rw [h1, h2]

/-- Everything a broadcast to the EGs does (R130, R138). -/
theorem egBroadcast_next (f : Eg → Eg) (s : State) :
    ∃ t, egBroadcast f s = .next t ∧
      (∀ e : Fin 16, t.chip.eg e = if s.chip.g.egsel.getLsbD e.val = true then f (s.chip.eg e) else s.chip.eg e) ∧
      t.chip.g = s.chip.g ∧ t.chip.mem = s.chip.mem ∧ t.chip.chs = s.chip.chs ∧
      t.queue = s.queue ∧ t.out = s.out ∧ t.ret = s.ret := by
  refine ⟨_, rfl, fun e => ?_, rfl, rfl, rfl, State.setChip_queue _ _, State.setChip_out _ _, State.setChip_ret _ _⟩
  exact Chip.mapEgs_eg _ _ _ _

/-- Everything a broadcast to the channels does (R130, R144). -/
theorem chBroadcast_next (f : Channel → Channel) (s : State) :
    ∃ t, chBroadcast f s = .next t ∧
      (∀ k : Fin 8, t.chip.ch k = if s.chip.g.chsel.getLsbD k.val = true then f (s.chip.ch k) else s.chip.ch k) ∧
      t.chip.g = s.chip.g ∧ t.chip.mem = s.chip.mem ∧ t.chip.egs = s.chip.egs ∧
      t.queue = s.queue ∧ t.out = s.out ∧ t.ret = s.ret := by
  refine ⟨_, rfl, fun k => ?_, rfl, rfl, rfl, State.setChip_queue _ _, State.setChip_out _ _, State.setChip_ret _ _⟩
  exact Chip.mapChs_ch _ _ _ _

/-- Everything a write to the global block does. -/
theorem globalWrite_next (f : Global → Global) (s : State) :
    globalWrite f s = .next { s with chip := { s.chip with g := f s.chip.g } } := rfl

end Sys2Proof.Machine
end

