-- ==== Sys2Proof/Laws/Biquad.lean ====
section
/-! SUPPORT. What one STAGE.PROCESS call does (R230 to R237). -/

namespace Sys2Proof.Machine

/-- Negation on the range of R29. -/
theorem negDelay_toInt {x : Sample} (h : x ≠ 0x8000) : (negDelay x).toInt = -x.toInt := by
  have := toInt_of_ne_min h
  rw [negDelay, if_neg h]
  exact i16_toInt (by omega) (by omega)

theorem negDelay_ne_min {x : Sample} (h : x ≠ 0x8000) : negDelay x ≠ 0x8000 :=
  ne_min_of_toInt (by rw [negDelay_toInt h]; have := toInt_of_ne_min h; omega)

theorem stageOut_bounds (m k3 k4 : Int) : -32767 ≤ stageOut m k3 k4 ∧ stageOut m k3 k4 ≤ 32767 := sat_bounds _

theorem stageMid_bounds (d : DelayLine) (k : Vector Sample 5) : -32767 ≤ stageMid d k ∧ stageMid d k ≤ 32767 :=
  sat_bounds _

@[simp] theorem Stage.outputOf_toInt (x : Stage) (d : DelayLine) :
    (x.outputOf d).toInt = stageOut (stageMid d x.coeff) x.coeff[3].toInt x.coeff[4].toInt := by
  have := stageOut_bounds (stageMid d x.coeff) x.coeff[3].toInt x.coeff[4].toInt
  exact i16_toInt (by omega) (by omega)

/-- What a stage returns lies in [-32767, 32767] (R237). -/
theorem Stage.process_ne_min (x : Stage) (input : Sample) (side : Side) : (x.process input side).2 ≠ 0x8000 := by
  refine ne_min_of_toInt ?_
  show -32767 ≤ (x.outputOf _).toInt
  rw [Stage.outputOf_toInt]
  exact (stageOut_bounds _ _ _).1

@[simp] theorem Stage.process_coeff (x : Stage) (input side) : (x.process input side).1.coeff = x.coeff := by
  simp [Stage.process]

@[simp] theorem Stage.process_delay (x : Stage) (input side i) :
    (x.process input side).1.delay i = if i = side then (x.delay side).push input else x.delay i := by
  simp [Stage.process]

@[simp] theorem stageProcess_g (c k x side) (chip : Chip) : (stageProcess c k x side chip).1.g = chip.g := rfl
@[simp] theorem stageProcess_mem (c k x side) (chip : Chip) : (stageProcess c k x side chip).1.mem = chip.mem := rfl
@[simp] theorem stageProcess_eg (c k x side) (chip : Chip) (e) : (stageProcess c k x side chip).1.eg e = chip.eg e := rfl

/-- Everything STAGE.PROCESS does to a channel. -/
@[simp] theorem stageProcess_ch (c k x side) (chip : Chip) (i) :
    (stageProcess c k x side chip).1.ch i =
      if i = c then (chip.ch c).setStage k (((chip.ch c).stage k).process x side).1 else chip.ch i := by
  simp [stageProcess]

@[simp] theorem stageProcess_snd (c k x side) (chip : Chip) :
    (stageProcess c k x side chip).2 = (((chip.ch c).stage k).process x side).2 := rfl

theorem stageProcess_ne_min (c k x side) (chip : Chip) : (stageProcess c k x side chip).2 ≠ 0x8000 :=
  Stage.process_ne_min _ _ _

end Sys2Proof.Machine
end

