-- ==== Sys2Proof/Laws/Envelope.lean ====
section
/-! SUPPORT. What one EG.RENDER call does (R200 to R204), and that a second call does nothing more (R207). -/

namespace Sys2Proof.Machine

/-- Step 1 changes the cursor and the flag only. -/
theorem Eg.resetCursor_cases (g : Eg) :
    (g.keyReset = true ∧ g.resetCursor = { g with keyReset := false, currentEntry := 0, currentStride := 0 }) ∨
    (g.keyReset = false ∧ g.resetCursor = g) := by
  unfold Eg.resetCursor
  cases g.keyReset <;> simp

@[simp] theorem Eg.resetCursor_keyReset (g : Eg) : g.resetCursor.keyReset = false := by
  rcases g.resetCursor_cases with ⟨-, h⟩ | ⟨h0, h⟩
  · rw [h]
  · rw [h, h0]

@[simp] theorem Eg.resetCursor_stepQueued (g : Eg) : g.resetCursor.stepQueued = g.stepQueued := by
  rcases g.resetCursor_cases with ⟨-, h⟩ | ⟨-, h⟩ <;> simp [h]

/-- The three outcomes of a move: count, advance, pause (R202 (a), (b)). -/
theorem Eg.moveCursor_cases (g : Eg) :
    (g.currentStride.toNat < g.stride.toNat ∧ g.moveCursor = { g with currentStride := g.currentStride + 1 }) ∨
    (g.stride.toNat ≤ g.currentStride.toNat ∧ (g.keyOn = false ∨ g.currentEntry.toNat ≠ g.holdPoint.toNat) ∧
      g.moveCursor = { g with currentEntry := g.currentEntry + 1, currentStride := 0 }) ∨
    (g.stride.toNat ≤ g.currentStride.toNat ∧ g.keyOn = true ∧ g.currentEntry.toNat = g.holdPoint.toNat ∧
      g.moveCursor = g) := by
  unfold Eg.moveCursor
  split
  · exact .inl ⟨‹_›, rfl⟩
  · split
    · exact .inr (.inl ⟨by omega, ‹_›, rfl⟩)
    · rename_i h1 h2
      simp only [not_or, Bool.not_eq_false, not_not] at h2
      exact .inr (.inr ⟨by omega, h2.1, h2.2, rfl⟩)

/-- The outcomes of step 2 (R202). -/
theorem Eg.consumeStep_cases (g : Eg) :
    (g.stepQueued = true ∧ g.currentEntry.toNat < 40 ∧ g.consumeStep = g.moveCursor.clearQueued) ∨
    ((g.stepQueued = false ∨ 40 ≤ g.currentEntry.toNat) ∧ g.consumeStep = g.clearQueued) := by
  unfold Eg.consumeStep
  split
  · rename_i h; exact .inl ⟨h.1, h.2, rfl⟩
  · rename_i h
    refine .inr ⟨?_, rfl⟩
    rcases Decidable.not_and_iff_not_or_not.mp h with h | h
    · exact .inl (by simpa using h)
    · exact .inr (by omega)

@[simp] theorem Eg.consumeStep_stepQueued (g : Eg) : g.consumeStep.stepQueued = false := by
  rcases g.consumeStep_cases with ⟨-, -, h⟩ | ⟨-, h⟩ <;> rw [h] <;> rfl

@[simp] theorem Eg.consumeStep_keyReset (g : Eg) : g.consumeStep.keyReset = g.keyReset := by
  rcases g.consumeStep_cases with ⟨-, -, h⟩ | ⟨-, h⟩ <;> rw [h]
  · rcases g.moveCursor_cases with ⟨-, h⟩ | ⟨-, -, h⟩ | ⟨-, -, -, h⟩ <;> simp [h]
  · simp

@[simp] theorem Eg.advance_stepQueued (g : Eg) : g.advance.stepQueued = false := by simp [Eg.advance]

@[simp] theorem Eg.advance_keyReset (g : Eg) : g.advance.keyReset = false := by simp [Eg.advance]

/-- A call changes no configuration field and not `key_on` (R23, R24). -/
theorem Eg.advance_config (g : Eg) :
    g.advance.multiplier = g.multiplier ∧ g.advance.holdPoint = g.holdPoint ∧ g.advance.stride = g.stride ∧
    g.advance.table = g.table ∧ g.advance.keyOn = g.keyOn := by
  unfold Eg.advance
  rcases g.resetCursor.consumeStep_cases with ⟨-, -, h⟩ | ⟨-, h⟩ <;> rw [h]
  · rcases g.resetCursor.moveCursor_cases with ⟨-, h⟩ | ⟨-, -, h⟩ | ⟨-, -, -, h⟩ <;> simp only [h] <;>
      rcases g.resetCursor_cases with ⟨-, h⟩ | ⟨-, h⟩ <;> simp [h]
  · rcases g.resetCursor_cases with ⟨-, h⟩ | ⟨-, h⟩ <;> simp [h]

/-- A unit with both flags clear is left as it is. -/
theorem Eg.advance_eq_self {g : Eg} (h1 : g.keyReset = false) (h2 : g.stepQueued = false) : g.advance = g := by
  obtain ⟨_, _, _, _, _, _, _, _, _⟩ := g
  simp only at h1 h2
  subst h1 h2
  simp [Eg.advance, Eg.resetCursor, Eg.consumeStep, Eg.clearQueued]

/-- A second call finds both flags clear and changes nothing (R207). -/
@[simp] theorem Eg.advance_advance (g : Eg) : g.advance.advance = g.advance :=
  Eg.advance_eq_self (by simp) (by simp)

/-- A call keeps the cursor in 0..40 (R25). -/
theorem Eg.advance_entry_le {g : Eg} (h : g.currentEntry.toNat ≤ 40) : g.advance.currentEntry.toNat ≤ 40 := by
  have hr : g.resetCursor.currentEntry.toNat ≤ 40 := by
    rcases g.resetCursor_cases with ⟨-, h'⟩ | ⟨-, h'⟩ <;> simp [h', h]
  unfold Eg.advance
  rcases g.resetCursor.consumeStep_cases with ⟨-, hlt, h'⟩ | ⟨-, h'⟩ <;> rw [h']
  · rcases g.resetCursor.moveCursor_cases with ⟨-, h''⟩ | ⟨-, -, h''⟩ | ⟨-, -, -, h''⟩ <;>
      (simp [h'', hr, BitVec.toNat_add]; try omega)
  · simpa using hr

/-- Everything EG.RENDER does to the chip: its unit advances (R200). -/
theorem egRender_chip (lut : Byte → Int) (e : Fin 16) (x : Bool) (c : Chip) :
    (egRender lut e x c).1.g = c.g ∧ (egRender lut e x c).1.mem = c.mem ∧ (egRender lut e x c).1.chs = c.chs ∧
    ∀ i, (egRender lut e x c).1.eg i = if i = e then (c.eg i).advance else c.eg i := by
  refine ⟨rfl, rfl, rfl, fun i => ?_⟩
  simp only [egRender, Chip.setEg_eg]
  split <;> simp_all

@[simp] theorem egRender_g (lut e x) (c : Chip) : (egRender lut e x c).1.g = c.g := rfl
@[simp] theorem egRender_mem (lut e x) (c : Chip) : (egRender lut e x c).1.mem = c.mem := rfl
@[simp] theorem egRender_ch (lut e x) (c : Chip) (k) : (egRender lut e x c).1.ch k = c.ch k := rfl
@[simp] theorem egRender_eg (lut e x) (c : Chip) (i) :
    (egRender lut e x c).1.eg i = if i = e then (c.eg i).advance else c.eg i := (egRender_chip lut e x c).2.2.2 i

/-- The output lies in [-32767, 32767] (R204). -/
theorem Eg.output_ne_min (lut : Byte → Int) (x : Bool) (g : Eg) : g.output lut x ≠ 0x8000 := narrow_ne_min _

end Sys2Proof.Machine
end

