-- ==== Sys2Proof/Laws/ChannelRender.lean ====
section
/-! SUPPORT. What one CH.RENDER call does to the chip (R260 to R267, R272): each part of the state in turn. -/

namespace Sys2Proof.Machine

/-- A run of EG.RENDER calls changes the EG bank only, and advances exactly the units named (R207). -/
theorem renderFeg_foldl (lut : Byte → Int) (feg : Vector EgIndex 10) (ks : List (Fin 10)) (p : Chip × Vector Sample 10) :
    (ks.foldl (renderFeg lut feg) p).1.g = p.1.g ∧ (ks.foldl (renderFeg lut feg) p).1.mem = p.1.mem ∧
    (∀ c, (ks.foldl (renderFeg lut feg) p).1.ch c = p.1.ch c) ∧
    ∀ e, (ks.foldl (renderFeg lut feg) p).1.eg e =
      if ∃ k ∈ ks, egOf feg[k] = e then (p.1.eg e).advance else p.1.eg e := by
  induction ks generalizing p with
  | nil => simp
  | cons k ks ih =>
    obtain ⟨h1, h2, h3, h4⟩ := ih (renderFeg lut feg p k)
    refine ⟨h1, h2, h3, fun e => ?_⟩
    have hk : ((renderFeg lut feg p k).1.eg e) = if e = egOf feg[k] then (p.1.eg e).advance else p.1.eg e :=
      egRender_eg lut (egOf feg[k]) false p.1 e
    have hm : (∃ j ∈ k :: ks, egOf feg[j] = e) ↔ e = egOf feg[k] ∨ ∃ j ∈ ks, egOf feg[j] = e := by
      simp only [List.mem_cons, exists_eq_or_imp]
      exact or_congr eq_comm Iff.rfl
    rw [List.foldl_cons, h4, hk]
    simp only [hm]
    by_cases h : e = egOf feg[k]
    · rw [if_pos h, if_pos (Or.inl h), Eg.advance_advance, ite_self]
    · rw [if_neg h]
      simp only [h, false_or]

theorem mem_fegOrder (k : Fin 10) : k ∈ fegOrder := by
  revert k; decide

@[simp] theorem renderFegs_g (lut feg) (c : Chip) : (renderFegs lut feg c).1.g = c.g :=
  (renderFeg_foldl lut feg fegOrder (c, Vector.replicate 10 0)).1

@[simp] theorem renderFegs_mem (lut feg) (c : Chip) : (renderFegs lut feg c).1.mem = c.mem :=
  (renderFeg_foldl lut feg fegOrder (c, Vector.replicate 10 0)).2.1

@[simp] theorem renderFegs_ch (lut feg) (c : Chip) (k) : (renderFegs lut feg c).1.ch k = c.ch k :=
  (renderFeg_foldl lut feg fegOrder (c, Vector.replicate 10 0)).2.2.1 k

/-- Step 4's calls advance exactly the EGs the ten fields name, once each. -/
theorem renderFegs_eg (lut : Byte → Int) (feg : Vector EgIndex 10) (c : Chip) (e : Fin 16) :
    (renderFegs lut feg c).1.eg e = if ∃ k : Fin 10, egOf feg[k] = e then (c.eg e).advance else c.eg e := by
  have h := (renderFeg_foldl lut feg fegOrder (c, Vector.replicate 10 0)).2.2.2 e
  simp only [mem_fegOrder, true_and] at h
  exact h

@[simp] theorem Channel.loadCoeffs_keyReset (v) (ch : Channel) : (ch.loadCoeffs v).keyReset = ch.keyReset := rfl
@[simp] theorem Channel.loadCoeffs_volL (v) (ch : Channel) : (ch.loadCoeffs v).volL = ch.volL := rfl
@[simp] theorem Channel.loadCoeffs_volR (v) (ch : Channel) : (ch.loadCoeffs v).volR = ch.volR := rfl
@[simp] theorem Channel.loadCoeffs_accMax (v) (ch : Channel) : (ch.loadCoeffs v).accMax = ch.accMax := rfl
@[simp] theorem Channel.loadCoeffs_aeg (v) (ch : Channel) : (ch.loadCoeffs v).aeg = ch.aeg := rfl
@[simp] theorem Channel.loadCoeffs_feg (v) (ch : Channel) : (ch.loadCoeffs v).feg = ch.feg := rfl
@[simp] theorem Channel.loadCoeffs_loopStart (v) (ch : Channel) : (ch.loadCoeffs v).loopStart = ch.loopStart := rfl
@[simp] theorem Channel.loadCoeffs_loopEnd (v) (ch : Channel) : (ch.loadCoeffs v).loopEnd = ch.loopEnd := rfl
@[simp] theorem Channel.loadCoeffs_acc (v) (ch : Channel) : (ch.loadCoeffs v).acc = ch.acc := rfl
@[simp] theorem Channel.loadCoeffs_ptr (v) (ch : Channel) : (ch.loadCoeffs v).ptr = ch.ptr := rfl

@[simp] theorem Channel.loadCoeffs_delay (v) (ch : Channel) (k : Fin 2) (side : Side) :
    ((ch.loadCoeffs v).stage k).delay side = (ch.stage k).delay side := by
  have hk : k = 0 ∨ k = 1 := by omega
  rcases hk with rfl | rfl <;> cases side <;> simp [Channel.loadCoeffs, Stage.delay]

/-- Steps 1 and 3 on a channel: pointer and accumulator move, nothing else. -/
def Channel.move (side : Side) (ch : Channel) : Channel := (ch.checkLoop).stepRate side

@[simp] theorem Channel.move_keyReset (side) (ch : Channel) : (ch.move side).keyReset = ch.keyReset := by
  unfold Channel.move Channel.stepRate Channel.checkLoop; cases side <;> dsimp only <;> split <;> (try split) <;> rfl
@[simp] theorem Channel.move_volL (side) (ch : Channel) : (ch.move side).volL = ch.volL := by
  unfold Channel.move Channel.stepRate Channel.checkLoop; cases side <;> dsimp only <;> split <;> (try split) <;> rfl
@[simp] theorem Channel.move_volR (side) (ch : Channel) : (ch.move side).volR = ch.volR := by
  unfold Channel.move Channel.stepRate Channel.checkLoop; cases side <;> dsimp only <;> split <;> (try split) <;> rfl
@[simp] theorem Channel.move_accMax (side) (ch : Channel) : (ch.move side).accMax = ch.accMax := by
  unfold Channel.move Channel.stepRate Channel.checkLoop; cases side <;> dsimp only <;> split <;> (try split) <;> rfl
@[simp] theorem Channel.move_aeg (side) (ch : Channel) : (ch.move side).aeg = ch.aeg := by
  unfold Channel.move Channel.stepRate Channel.checkLoop; cases side <;> dsimp only <;> split <;> (try split) <;> rfl
@[simp] theorem Channel.move_feg (side) (ch : Channel) : (ch.move side).feg = ch.feg := by
  unfold Channel.move Channel.stepRate Channel.checkLoop; cases side <;> dsimp only <;> split <;> (try split) <;> rfl
@[simp] theorem Channel.move_loopStart (side) (ch : Channel) : (ch.move side).loopStart = ch.loopStart := by
  unfold Channel.move Channel.stepRate Channel.checkLoop; cases side <;> dsimp only <;> split <;> (try split) <;> rfl
@[simp] theorem Channel.move_loopEnd (side) (ch : Channel) : (ch.move side).loopEnd = ch.loopEnd := by
  unfold Channel.move Channel.stepRate Channel.checkLoop; cases side <;> dsimp only <;> split <;> (try split) <;> rfl
@[simp] theorem Channel.move_st (side) (ch : Channel) : (ch.move side).st = ch.st := by
  unfold Channel.move Channel.stepRate Channel.checkLoop; cases side <;> dsimp only <;> split <;> (try split) <;> rfl

/-- The channel a CH.RENDER call leaves, given its stage-0 input and its ten coefficients. -/
def Channel.rendered (side : Side) (x : Sample) (v : Vector Sample 10) (ch : Channel) : Channel :=
  let a := (ch.move side).loadCoeffs v
  let b := a.setStage 0 ((a.stage 0).process x side).1
  let c := b.setStage 1 ((b.stage 1).process ((a.stage 0).process x side).2 side).1
  c.clearKeyReset ch.keyReset

@[simp] theorem chRender_g (lut c side) (chip : Chip) : (chRender lut c side chip).1.g = chip.g := by
  simp [chRender]

@[simp] theorem chRender_mem (lut c side) (chip : Chip) : (chRender lut c side chip).1.mem = chip.mem := by
  simp [chRender]

/-- The stage-0 input of a CH.RENDER call: the cell at the checked pointer, scaled (R261, R262). -/
def chInput (c : Fin 8) (side : Side) (chip : Chip) : Sample := (chip.ch c).checkLoop.fetchScale chip.mem side

/-- The ten coefficients of a CH.RENDER call (R264). -/
def chCoeffs (lut : Byte → Int) (c : Fin 8) (side : Side) (chip : Chip) : Vector Sample 10 :=
  (renderFegs lut (chip.ch c).feg ((chip.modifyCh c Channel.checkLoop).modifyCh c (Channel.stepRate side))).2

theorem chInput_ne_min (c side) (chip : Chip) : chInput c side chip ≠ 0x8000 := narrow_ne_min _

/-- What CH.RENDER does to the channels: its own becomes `Channel.rendered`, the others are unchanged (R260, R272). -/
theorem chRender_ch (lut : Byte → Int) (c : Fin 8) (side : Side) (chip : Chip) (k : Fin 8) :
    (chRender lut c side chip).1.ch k =
      if k = c then (chip.ch c).rendered side (chInput c side chip) (chCoeffs lut c side chip) else chip.ch k := by
  have hfeg : ((chip.ch c).checkLoop.stepRate side).feg = (chip.ch c).feg := Channel.move_feg side (chip.ch c)
  by_cases hk : k = c
  · subst hk
    simp only [chRender, Chip.modifyCh_ch, egRender_ch, stageProcess_ch, stageProcess_snd, renderFegs_ch, if_true,
      hfeg, Chip.modifyCh_mem, Channel.rendered, Channel.move, chInput, chCoeffs]
  · simp [chRender, hk]

/-- CH.RENDER advances exactly the EGs its channel references, once each (R207, R264, R266). -/
theorem chRender_eg (lut : Byte → Int) (c : Fin 8) (side : Side) (chip : Chip) (e : Fin 16) :
    (chRender lut c side chip).1.eg e =
      if egOf (chip.ch c).aeg = e ∨ ∃ k : Fin 10, egOf (chip.ch c).feg[k] = e then (chip.eg e).advance
      else chip.eg e := by
  have hmove : ∀ ch : Channel, (ch.checkLoop).stepRate side = ch.move side := fun _ => rfl
  simp only [chRender, Chip.modifyCh_eg, egRender_eg, stageProcess_eg, renderFegs_eg, Chip.modifyCh_ch,
    stageProcess_ch, renderFegs_ch, if_true, hmove, Channel.setStage_aeg, Channel.loadCoeffs_aeg, Channel.move_aeg,
    Channel.move_feg]
  by_cases ha : egOf (chip.ch c).aeg = e
  · rw [if_pos ha.symm, if_pos (Or.inl ha)]
    split
    · exact Eg.advance_advance _
    · rfl
  · rw [if_neg (Ne.symm ha)]
    simp only [ha, false_or]

/-- What CH.RENDER returns: the cascade's output scaled by the amplitude EG's (R265, R266). -/
theorem chRender_snd (lut : Byte → Int) (c : Fin 8) (side : Side) (chip : Chip) :
    ∃ y1 a, (chRender lut c side chip).2 = channelOut y1 a := ⟨_, _, rfl⟩

@[simp] theorem Channel.rendered_keyReset (side x v) (ch : Channel) : (ch.rendered side x v).keyReset = false := by
  simp only [Channel.rendered, Channel.clearKeyReset_keyReset, Channel.setStage_keyReset,
    Channel.loadCoeffs_keyReset, Channel.move_keyReset]
  cases ch.keyReset <;> rfl

/-- CH.RENDER changes no configuration field of its channel (R30). -/
theorem Channel.rendered_config (side x v) (ch : Channel) :
    (ch.rendered side x v).volL = ch.volL ∧ (ch.rendered side x v).volR = ch.volR ∧
    (ch.rendered side x v).accMax = ch.accMax ∧ (ch.rendered side x v).aeg = ch.aeg ∧
    (ch.rendered side x v).feg = ch.feg ∧ (ch.rendered side x v).loopStart = ch.loopStart ∧
    (ch.rendered side x v).loopEnd = ch.loopEnd := by
  simp [Channel.rendered]

@[simp] theorem Channel.rendered_aeg (side x v) (ch : Channel) : (ch.rendered side x v).aeg = ch.aeg :=
  (ch.rendered_config side x v).2.2.2.1

@[simp] theorem Channel.rendered_feg (side x v) (ch : Channel) : (ch.rendered side x v).feg = ch.feg :=
  (ch.rendered_config side x v).2.2.2.2.1

/-- The pointer and the accumulator move by steps 1 and 3 alone (R261, R263). -/
theorem Channel.rendered_ptr_acc (side x v) (ch : Channel) :
    (ch.rendered side x v).ptr = (ch.move side).ptr ∧ (ch.rendered side x v).acc = (ch.move side).acc := by
  simp [Channel.rendered]

/-- Each stage's delay line of the call's side is pushed once; the other side's is untouched (R234, R239). -/
theorem Channel.rendered_delay (side i : Side) (x v) (ch : Channel) (k : Fin 2) :
    ∃ y, (x ≠ 0x8000 → y ≠ 0x8000) ∧ ((ch.rendered side x v).stage k).delay i =
      if i = side then ((ch.stage k).delay side).push y else (ch.stage k).delay i := by
  have hst : ∀ ch : Channel, ∀ b, (ch.clearKeyReset b).stage k = ch.stage k := fun _ _ => rfl
  have hm : (ch.move side).stage k = ch.stage k := by simp [Channel.stage]
  have hk : k = 0 ∨ k = 1 := by omega
  rcases hk with rfl | rfl
  · refine ⟨x, id, ?_⟩
    simp [Channel.rendered, hst, hm]
  · refine ⟨(((((ch.move side).loadCoeffs v)).stage 0).process x side).2, fun _ => Stage.process_ne_min _ _ _, ?_⟩
    simp [Channel.rendered, hst, hm]

end Sys2Proof.Machine
end

