-- ==== Sys2Proof/Laws/ChipRender.lean ====
section
/-! SUPPORT. What a FRAME and a RENDER do to the chip (R300 to R311): each part of the state in turn. -/

namespace Sys2Proof.Machine

theorem addRef_foldl (l : List EgIndex) (m : BitVec 16) (e : Fin 16) :
    (l.foldl addRef m).getLsbD e.val = true ↔ m.getLsbD e.val = true ∨ ∃ i ∈ l, egOf i = e := by
  induction l generalizing m with
  | nil => simp
  | cons i l ih =>
    have hb : (addRef m i).getLsbD e.val = true ↔ m.getLsbD e.val = true ∨ egOf i = e := by
      have hi := i.isLt
      have he : egOf i = e ↔ i.toNat = e.val := by simp [egOf, Fin.ext_iff]
      have h1 : (1#16 <<< i.toNat).getLsbD e.val = decide (i.toNat = e.val) := by
        rcases Nat.lt_trichotomy e.val i.toNat with h | h | h
        · simp [h, Nat.ne_of_gt h]
        · simp [h]; omega
        · simp [show ¬ e.val < i.toNat by omega, show ¬ i.toNat = e.val by omega]; omega
      simp only [addRef, BitVec.getLsbD_or, h1, Bool.or_eq_true, decide_eq_true_eq, he]
    rw [List.foldl_cons, ih, hb]
    simp only [List.mem_cons, exists_eq_or_imp, or_assoc]

/-- The channel names the EG in one of its eleven fields. -/
abbrev Channel.Names (ch : Channel) (e : Fin 16) : Prop := egOf ch.aeg = e ∨ ∃ k : Fin 10, egOf ch.feg[k] = e

theorem Channel.mem_refs (ch : Channel) (e : Fin 16) : (∃ i ∈ ch.refs, egOf i = e) ↔ ch.Names e := by
  simp only [Channel.refs, List.mem_cons, exists_eq_or_imp, Channel.Names]
  refine or_congr Iff.rfl ⟨?_, ?_⟩
  · rintro ⟨i, hi, he⟩
    obtain ⟨n, hn, rfl⟩ := List.getElem_of_mem hi
    exact ⟨⟨n, by simpa using hn⟩, by simpa using he⟩
  · rintro ⟨k, he⟩
    exact ⟨ch.feg[k], by simp, he⟩

theorem mem_chOrder (k : Fin 8) : k ∈ chOrder := by
  revert k; decide

/-- The mask has a bit set exactly when some channel names that EG (R302). -/
theorem refMask_getLsbD (c : Chip) (e : Fin 16) :
    (refMask c).getLsbD e.val = true ↔ ∃ k, (c.ch k).Names e := by
  rw [refMask, addRef_foldl]
  simp only [List.mem_flatMap, mem_chOrder, true_and, BitVec.ofNat_eq_ofNat, BitVec.getLsbD_zero, Bool.false_eq_true,
    false_or]
  constructor
  · rintro ⟨i, ⟨k, hi⟩, he⟩
    exact ⟨k, (c.ch k).mem_refs e |>.mp ⟨i, hi, he⟩⟩
  · rintro ⟨k, hk⟩
    obtain ⟨i, hi, he⟩ := (c.ch k).mem_refs e |>.mpr hk
    exact ⟨i, ⟨k, hi⟩, he⟩

@[simp] theorem markReferenced_g (c : Chip) : c.markReferenced.g = c.g := rfl
@[simp] theorem markReferenced_mem (c : Chip) : c.markReferenced.mem = c.mem := rfl
@[simp] theorem markReferenced_ch (c : Chip) (k) : c.markReferenced.ch k = c.ch k := rfl

theorem markReferenced_eg (c : Chip) (e : Fin 16) :
    c.markReferenced.eg e = if ∃ k, (c.ch k).Names e then (c.eg e).queueStep else c.eg e := by
  rw [Chip.markReferenced, Chip.mapEgs_eg]
  simp only [refMask_getLsbD]

@[simp] theorem addChannel_g (lut p c) : (addChannel lut p c).1.g = p.1.g := by simp [addChannel]
@[simp] theorem addChannel_mem (lut p c) : (addChannel lut p c).1.mem = p.1.mem := by simp [addChannel]

/-- The Left call and the Right call of one channel. -/
theorem addChannel_ch (lut : Byte → Int) (p : Chip × StereoFrame) (c k : Fin 8) :
    ∃ x v x' v', x ≠ 0x8000 ∧ x' ≠ 0x8000 ∧ (addChannel lut p c).1.ch k =
      if k = c then ((p.1.ch c).rendered .left x v).rendered .right x' v' else p.1.ch k := by
  refine ⟨chInput c .left p.1, chCoeffs lut c .left p.1, chInput c .right (chRender lut c .left p.1).1,
    chCoeffs lut c .right (chRender lut c .left p.1).1, chInput_ne_min _ _ _, chInput_ne_min _ _ _, ?_⟩
  by_cases hk : k = c
  · subst hk
    simp only [addChannel, chRender_ch, if_true]
  · simp only [addChannel, chRender_ch, hk, if_false]

theorem addChannel_eg (lut : Byte → Int) (p : Chip × StereoFrame) (c : Fin 8) (e : Fin 16) :
    (addChannel lut p c).1.eg e = if (p.1.ch c).Names e then (p.1.eg e).advance else p.1.eg e := by
  have hn : ((chRender lut c .left p.1).1.ch c).Names e ↔ (p.1.ch c).Names e := by
    simp only [chRender_ch, if_true, Channel.Names, Channel.rendered_aeg, Channel.rendered_feg]
  show (chRender lut c .right (chRender lut c .left p.1).1).1.eg e = _
  rw [chRender_eg, chRender_eg]
  by_cases h : (p.1.ch c).Names e
  · rw [if_pos (hn.mpr h), if_pos h, Eg.advance_advance]
  · rw [if_neg (fun h' => h (hn.mp h')), if_neg h]

theorem addChannel_names (lut : Byte → Int) (p : Chip × StereoFrame) (c k : Fin 8) (e : Fin 16) :
    ((addChannel lut p c).1.ch k).Names e ↔ (p.1.ch k).Names e := by
  obtain ⟨x, v, x', v', -, -, h⟩ := addChannel_ch lut p c k
  rw [h]
  by_cases hk : k = c
  · subst hk; simp [Channel.Names]
  · simp [hk]

theorem addChannel_foldl (lut : Byte → Int) (ks : List (Fin 8)) (p : Chip × StereoFrame) :
    (ks.foldl (addChannel lut) p).1.g = p.1.g ∧ (ks.foldl (addChannel lut) p).1.mem = p.1.mem ∧
    ∀ e, (ks.foldl (addChannel lut) p).1.eg e =
      if ∃ k ∈ ks, (p.1.ch k).Names e then (p.1.eg e).advance else p.1.eg e := by
  induction ks generalizing p with
  | nil => simp
  | cons c ks ih =>
    obtain ⟨h1, h2, h3⟩ := ih (addChannel lut p c)
    refine ⟨by rw [List.foldl_cons, h1, addChannel_g], by rw [List.foldl_cons, h2, addChannel_mem], fun e => ?_⟩
    rw [List.foldl_cons, h3, addChannel_eg]
    simp only [addChannel_names, List.mem_cons, exists_eq_or_imp]
    by_cases h : (p.1.ch c).Names e
    · rw [if_pos h, if_pos (Or.inl h), Eg.advance_advance, ite_self]
    · rw [if_neg h]
      simp only [h, false_or]

/-- A run over channels without repeats renders each of them once, Left then Right, and leaves the others. -/
theorem addChannel_foldl_ch (lut : Byte → Int) (ks : List (Fin 8)) (hks : ks.Nodup) (p : Chip × StereoFrame) (k : Fin 8) :
    ∃ x v x' v', x ≠ 0x8000 ∧ x' ≠ 0x8000 ∧ (ks.foldl (addChannel lut) p).1.ch k =
      if k ∈ ks then ((p.1.ch k).rendered .left x v).rendered .right x' v' else p.1.ch k := by
  induction ks generalizing p with
  | nil =>
    obtain ⟨x, v, x', v', hx, hx', -⟩ := addChannel_ch lut p 0 0
    exact ⟨x, v, x', v', hx, hx', by simp⟩
  | cons c ks ih =>
    have ⟨hc, hn⟩ := List.nodup_cons.mp hks
    obtain ⟨x, v, x', v', hx, hx', h⟩ := ih hn (addChannel lut p c)
    obtain ⟨y, w, y', w', hy, hy', h2⟩ := addChannel_ch lut p c k
    rw [List.foldl_cons]
    by_cases hk : k = c
    · subst hk
      rw [if_neg hc, h2, if_pos rfl] at h
      exact ⟨y, w, y', w', hy, hy', by rw [h, if_pos (by simp)]⟩
    · rw [h2, if_neg hk] at h
      refine ⟨x, v, x', v', hx, hx', ?_⟩
      rw [h]
      simp only [List.mem_cons, hk, false_or]

@[simp] theorem frame_g (lut) (c : Chip) : (frame lut c).1.g = c.g := (addChannel_foldl lut _ _).1
@[simp] theorem frame_mem (lut) (c : Chip) : (frame lut c).1.mem = c.mem := (addChannel_foldl lut _ _).2.1

/-- One frame moves a referenced EG by exactly one consumed step and leaves the others (R303, R309, R211). -/
theorem frame_eg (lut : Byte → Int) (c : Chip) (e : Fin 16) :
    (frame lut c).1.eg e = if ∃ k, (c.ch k).Names e then (c.eg e).queueStep.advance else c.eg e := by
  rw [frame, (addChannel_foldl lut _ _).2.2]
  simp only [mem_chOrder, true_and, markReferenced_ch, markReferenced_eg]
  split <;> rfl

/-- One frame renders each channel once on the Left and once on the Right (R304, R306). -/
theorem frame_ch (lut : Byte → Int) (c : Chip) (k : Fin 8) :
    ∃ x v x' v', x ≠ 0x8000 ∧ x' ≠ 0x8000 ∧
      (frame lut c).1.ch k = ((c.ch k).rendered .left x v).rendered .right x' v' := by
  obtain ⟨x, v, x', v', hx, hx', h⟩ :=
    addChannel_foldl_ch lut chOrder (by decide) (c.markReferenced, { l := 0, r := 0 }) k
  exact ⟨x, v, x', v', hx, hx', by rw [frame, h, if_pos (mem_chOrder k), markReferenced_ch]⟩

theorem frame_names (lut : Byte → Int) (c : Chip) (k : Fin 8) (e : Fin 16) :
    ((frame lut c).1.ch k).Names e ↔ (c.ch k).Names e := by
  obtain ⟨x, v, x', v', -, -, h⟩ := frame_ch lut c k
  rw [h]
  simp [Channel.Names]

@[simp] theorem renderFrames_zero (lut) (c : Chip) : renderFrames lut 0 c = (c, []) := rfl

@[simp] theorem renderFrames_succ (lut n) (c : Chip) :
    renderFrames lut (n + 1) c =
      ((renderFrames lut n (frame lut c).1).1, (frame lut c).2 :: (renderFrames lut n (frame lut c).1).2) := rfl

@[simp] theorem renderFrames_length (lut n) (c : Chip) : (renderFrames lut n c).2.length = n := by
  induction n generalizing c with
  | zero => rfl
  | succ n ih => simp [ih]

/-- A property that every frame keeps, every run of frames keeps. -/
theorem renderFrames_induction (lut : Byte → Int) {P : Chip → Prop} (h : ∀ c, P c → P (frame lut c).1) (n : Nat)
    {c : Chip} (hc : P c) : P (renderFrames lut n c).1 := by
  induction n generalizing c with
  | zero => exact hc
  | succ n ih => exact ih (h c hc)

end Sys2Proof.Machine
end

