-- ==== Sys2Proof/Laws/Script.lean ====
section
/-! SUPPORT. What `exec` answers for the micro-operations, and CH.RENDER's parts in the terms of Safety.lean (R260, R301). -/

namespace Sys2Proof.Machine

theorem narrow_eq_clamped (v : Int) : narrow v = clamped v := by
  unfold narrow clamped i16 sat
  congr 1
  split <;> (try split) <;> omega

theorem references_iff (c : Chip) (e : Fin 16) : c.References e ↔ ∃ k, (c.ch k).Names e :=
  exists_congr fun _ => or_congr (by simp [egOf, Fin.ext_iff]) (exists_congr fun _ => by simp [egOf, Fin.ext_iff])

theorem exec_egRender (e x) (s : State) : exec (.egRender e x) s =
    .next ((s.setChip (egRender Config.expLut e x s.chip).1).setRet (.sample (egRender Config.expLut e x s.chip).2)) := rfl

theorem exec_stageProcess (c k x side) (s : State) (hx : x ≠ 0x8000) : exec (.stageProcess c k x side) s =
    .next ((s.setChip (stageProcess c k x side s.chip).1).setRet (.sample (stageProcess c k x side s.chip).2)) := by
  show execStageProcess c k x side s = _
  unfold execStageProcess
  rw [if_pos (by simpa using hx)]
  rfl

theorem exec_chRender (c side) (s : State) : exec (.chRender c side) s =
    .next ((s.setChip (chRender Config.expLut c side s.chip).1).setRet (.sample (chRender Config.expLut c side s.chip).2)) := rfl

theorem exec_frame (s : State) : exec .frame s =
    .next ((s.setChip (frame Config.expLut s.chip).1).setRet (.stereo (frame Config.expLut s.chip).2)) := rfl

theorem exec_render (n : BitVec 32) (s : State) : exec (.render n) s =
    .next ((s.setChip (renderFrames Config.expLut n.toNat s.chip).1).emit (renderFrames Config.expLut n.toNat s.chip).2) := rfl

theorem callMicro_next {i : Instr} {s t : State} {v : Sample} (h : exec i s = .next t) (hr : t.ret = .sample v) :
    callMicro i s = some (t, v) := by
  unfold callMicro
  rw [h]
  simp only [hr]

theorem callMicro_egRender (e x) (s : State) : callMicro (.egRender e x) s =
    some ((s.setChip (egRender Config.expLut e x s.chip).1).setRet (.sample (egRender Config.expLut e x s.chip).2),
      (egRender Config.expLut e x s.chip).2) := callMicro_next (exec_egRender e x s) rfl

theorem callMicro_stageProcess (c k x side) (s : State) (hx : x ≠ 0x8000) : callMicro (.stageProcess c k x side) s =
    some ((s.setChip (stageProcess c k x side s.chip).1).setRet (.sample (stageProcess c k x side s.chip).2),
      (stageProcess c k x side s.chip).2) := callMicro_next (exec_stageProcess c k x side s hx) rfl

theorem callMicro_chRender (c side) (s : State) : callMicro (.chRender c side) s =
    some ((s.setChip (chRender Config.expLut c side s.chip).1).setRet (.sample (chRender Config.expLut c side s.chip).2),
      (chRender Config.expLut c side s.chip).2) := callMicro_next (exec_chRender c side s) rfl

/-- An instruction whose meaning is an EG broadcast writes the selected EGs and nothing else (R138). -/
theorem writesSelectedEgs_of {i : Instr} {f : Eg → Eg} (h : ∀ s, exec i s = egBroadcast f s) : WritesSelectedEgs i f :=
  fun s => let ⟨t, ht, he, hrest⟩ := egBroadcast_next f s; ⟨t, (h s).trans ht, hrest, he⟩

/-- An instruction whose meaning is a channel broadcast writes the selected channels and nothing else (R144). -/
theorem writesSelectedChannels_of {i : Instr} {f : Channel → Channel} (h : ∀ s, exec i s = chBroadcast f s) :
    WritesSelectedChannels i f :=
  fun s => let ⟨t, ht, hc, hrest⟩ := chBroadcast_next f s; ⟨t, (h s).trans ht, hrest, hc⟩

/-- Two instructions whose meanings are channel broadcasts, one after the other, at a channel both select. -/
theorem holdsAfterBoth_channels {i j : Instr} {f g : Channel → Channel} (hi : ∀ s, exec i s = chBroadcast f s)
    (hj : ∀ s, exec j s = chBroadcast g s) {s : State} {c : Fin 8} (hc : s.chip.g.chsel.getLsbD c.val = true)
    {P : Channel → Prop} (hP : P (g (f (s.chip.ch c)))) : HoldsAfterBoth i j s (fun u => P (u.chip.ch c)) := by
  obtain ⟨t, h1, ⟨hg, -⟩, hch⟩ := writesSelectedChannels_of hi s
  obtain ⟨u, h2, -, hch'⟩ := writesSelectedChannels_of hj t
  refine ⟨t, u, h1, h2, ?_⟩
  show P (u.chip.ch c)
  rw [hch', hg, if_pos hc, hch, if_pos hc]
  exact hP

theorem pointerChecked_lt (ch : Channel) : pointerChecked ch < 32768 := by
  have := ch.ptr.isLt
  unfold pointerChecked
  split <;> omega

theorem Channel.checkLoop_eq (ch : Channel) : ch.checkLoop = { ch with ptr := BitVec.ofNat 15 (pointerChecked ch) } := by
  unfold Channel.checkLoop pointerChecked
  simp only [memIndex_toNat]
  split
  · rfl
  · simp

theorem Channel.move_eq (side : Side) (ch : Channel) : ch.move side = pointerMoved side ch (pointerChecked ch) := by
  unfold Channel.move
  rw [Channel.checkLoop_eq]
  unfold Channel.stepRate pointerMoved
  cases side
  · rfl
  · simp only
    by_cases h : ch.acc = 0
    · rw [if_pos h, if_pos (by rw [h]; rfl)]
      congr 1
      apply BitVec.eq_of_toNat_eq
      simp
    · have h0 : ch.acc.toNat ≠ 0 := fun h0 => h (BitVec.eq_of_toNat_eq h0)
      rw [if_neg h, if_neg h0]
      congr 1
      have := ch.acc.isLt
      apply BitVec.eq_of_toNat_eq
      rw [BitVec.toNat_sub]
      simp
      omega

theorem chInput_eq (c : Fin 8) (side : Side) (chip : Chip) : chInput c side chip =
    clamped ((memRead chip.mem (pointerChecked (chip.ch c))).toInt * 256 * ((chip.ch c).volume side).toInt) := by
  unfold chInput
  rw [Channel.checkLoop_eq]
  have hp : (BitVec.ofNat 15 (pointerChecked (chip.ch c))).toNat = pointerChecked (chip.ch c) := by
    simp [Nat.mod_eq_of_lt (pointerChecked_lt _)]
  unfold Channel.fetchScale
  rw [narrow_eq_clamped, s8_eq_toInt, s8_eq_toInt]
  simp only [hp]
  cases side <;> rfl

theorem coeffsLoaded_eq (v : Vector Sample 10) (ch : Channel) : coeffsLoaded v.toList ch = ch.loadCoeffs v := by
  unfold coeffsLoaded Channel.loadCoeffs Channel.setStage Channel.stage
  simp only
  congr 1
  apply Vector.ext
  intro i hi
  have hi' : i = 0 ∨ i = 1 := by omega
  rcases hi' with rfl | rfl <;>
    (simp
     apply Array.ext
     · simp
     · intro j hj _
       have : j < 5 := by simpa using hj
       interval_cases j <;> simp)

/-- The first three steps move the channel and nothing else (R261 to R263). -/
theorem movedChip_eq (c : Fin 8) (side : Side) (chip : Chip) :
    (chip.modifyCh c Channel.checkLoop).modifyCh c (Channel.stepRate side) = chip.setCh c ((chip.ch c).move side) := by
  refine Chip.ext_units rfl rfl (fun e => rfl) (fun k => ?_)
  simp only [Chip.modifyCh_ch, Chip.setCh_ch]
  split
  · rename_i hk; subst hk; rfl
  · rfl

/-- The chain of parts a CH.RENDER call is made of (R260). -/
theorem chRender_eq (lut : Byte → Int) (c : Fin 8) (side : Side) (chip : Chip) (p4 : Chip × Vector Sample 10)
    (p5 p6 p7 : Chip × Sample) (h4 : renderFegs lut (chip.ch c).feg (chip.setCh c ((chip.ch c).move side)) = p4)
    (h5 : stageProcess c 0 (chInput c side chip) side (p4.1.modifyCh c (Channel.loadCoeffs p4.2)) = p5)
    (h6 : stageProcess c 1 p5.2 side p5.1 = p6) (h7 : egRender lut (egOf (chip.ch c).aeg) true p6.1 = p7) :
    chRender lut c side chip = (p7.1.setCh c { p7.1.ch c with keyReset := false }, channelOut p6.2 p7.2) := by
  have e1 : ((chip.modifyCh c Channel.checkLoop).ch c).fetchScale (chip.modifyCh c Channel.checkLoop).mem side =
      chInput c side chip := by
    rw [Chip.modifyCh_ch, if_pos rfl, Chip.modifyCh_mem]; rfl
  have e2 : ((chip.setCh c ((chip.ch c).move side)).ch c).feg = (chip.ch c).feg := by simp
  have e3 : (p6.1.ch c).aeg = (chip.ch c).aeg := by subst h6 h5 h4; simp
  have e4 : (p7.1.ch c).keyReset = (chip.ch c).keyReset := by subst h7 h6 h5 h4; simp
  unfold chRender
  simp only [movedChip_eq, e1, e2, h4, h5, h6, e3, h7]
  rw [Chip.modifyCh, Channel.clearKeyReset, e4]
  congr 2
  cases (chip.ch c).keyReset <;> rfl

/-- EG.RENDER in linear mode for each index of a list, and the values returned, on the chip alone. -/
def fegRun (lut : Byte → Int) : List EgIndex → Chip → Chip × List Sample
  | [], c => (c, [])
  | i :: rest, c =>
    let q := egRender lut (egOf i) false c
    let z := fegRun lut rest q.1
    (z.1, q.2 :: z.2)

theorem callFegs_eq (l : List EgIndex) (s : State) :
    ∃ t, callFegs l s = some (t, (fegRun Config.expLut l s.chip).2) ∧ t.chip = (fegRun Config.expLut l s.chip).1 := by
  induction l generalizing s with
  | nil => exact ⟨s, rfl, rfl⟩
  | cons i rest ih =>
    obtain ⟨t, h1, h2⟩ := ih ((s.setChip (egRender Config.expLut (egOf i) false s.chip).1).setRet
      (.sample (egRender Config.expLut (egOf i) false s.chip).2))
    refine ⟨t, ?_, h2⟩
    unfold callFegs
    show (callMicro (.egRender (egOf i) false) s).bind _ = _
    rw [callMicro_egRender]
    simp only [Option.bind_some, h1]
    rfl

theorem Vector.toList_ten (v : Vector EgIndex 10) :
    v.toList = [v[0], v[1], v[2], v[3], v[4], v[5], v[6], v[7], v[8], v[9]] := by
  apply List.ext_getElem
  · simp
  · intro i h1 _
    have : i < 10 := by simpa using h1
    interval_cases i <;> simp

theorem renderFegs_eq (lut : Byte → Int) (feg : Vector EgIndex 10) (c : Chip) :
    (renderFegs lut feg c).1 = (fegRun lut feg.toList c).1 ∧
    (renderFegs lut feg c).2.toList = (fegRun lut feg.toList c).2 := by
  rw [Vector.toList_ten]
  refine ⟨rfl, ?_⟩
  simp only [renderFegs, fegOrder, List.foldl_cons, List.foldl_nil, renderFeg, fegRun]
  apply List.ext_getElem
  · simp
  · intro i _ h2
    have : i < 10 := by simpa using h2
    interval_cases i <;> (simp; try rfl)

/-- Marking as Safety.lean writes it out is the model's marking (R302, R303). -/
theorem marked_chip (s : State) : s.marked.chip = s.chip.markReferenced := by
  unfold State.marked
  rw [State.setChip_chip]
  refine Chip.ext_units ?_ ?_ (fun e => ?_) (fun k => ?_)
  · rw [markReferenced_g]
  · rw [markReferenced_mem]
  · rw [markReferenced_eg]
    show (Vector.ofFn _)[e] = _
    simp only [Fin.getElem_fin, Vector.getElem_ofFn, Fin.eta, ← references_iff]
    split
    · rename_i h; simp [Eg.queueStep, h]
    · rename_i h; simp [h]
  · rw [markReferenced_ch]; rfl

theorem addChannel_eq (lut : Byte → Int) (chip : Chip) (f : StereoFrame) (c : Fin 8) (l r : Chip × Sample)
    (hl : chRender lut c .left chip = l) (hr : chRender lut c .right l.1 = r) :
    addChannel lut (chip, f) c = (r.1, { l := f.l + l.2, r := f.r + r.2 }) := by
  unfold addChannel
  simp only [hl, hr, wrap16_add]

theorem renderFrames_snoc (lut : Byte → Int) (n : Nat) (c : Chip) :
    (renderFrames lut (n + 1) c).1 = (frame lut (renderFrames lut n c).1).1 := by
  induction n generalizing c with
  | zero => rfl
  | succ n ih =>
    rw [renderFrames_succ lut (n + 1) c, renderFrames_succ lut n c]
    exact ih (frame lut c).1

theorem renderFrames_add (lut : Byte → Int) (a b : Nat) (c : Chip) : renderFrames lut (a + b) c =
    ((renderFrames lut b (renderFrames lut a c).1).1,
      (renderFrames lut a c).2 ++ (renderFrames lut b (renderFrames lut a c).1).2) := by
  induction a generalizing c with
  | zero => simp
  | succ a ih => rw [Nat.succ_add]; simp [ih]

/-- One step queued and consumed, with the key off, no reset pending and the table not exhausted (R202). -/
theorem Eg.queueStep_advance {g : Eg} (hk : g.keyReset = false) (ho : g.keyOn = false) (hn : g.currentEntry.toNat < 40) :
    g.queueStep.advance.currentEntry.toNat =
      (if g.currentStride.toNat < g.stride.toNat then g.currentEntry.toNat else g.currentEntry.toNat + 1) ∧
    g.queueStep.advance.currentStride.toNat =
      (if g.currentStride.toNat < g.stride.toNat then g.currentStride.toNat + 1 else 0) := by
  have hS := g.stride.isLt
  have hr : g.queueStep.resetCursor = g.queueStep := by
    rcases g.queueStep.resetCursor_cases with ⟨h, -⟩ | ⟨-, h⟩
    · rw [Eg.queueStep_keyReset, hk] at h; cases h
    · exact h
  unfold Eg.advance
  rw [hr]
  rcases g.queueStep.consumeStep_cases with ⟨-, -, h⟩ | ⟨h | h, -⟩
  · rw [h, Eg.clearQueued_currentEntry, Eg.clearQueued_currentStride]
    rcases g.queueStep.moveCursor_cases with ⟨h1, h⟩ | ⟨h1, -, h⟩ | ⟨-, h2, -, -⟩
    · rw [Eg.queueStep_currentStride, Eg.queueStep_stride] at h1
      rw [h, if_pos h1, if_pos h1]
      refine ⟨rfl, ?_⟩
      show (g.currentStride + 1).toNat = _
      rw [BitVec.toNat_add]; simp; omega
    · rw [Eg.queueStep_currentStride, Eg.queueStep_stride] at h1
      rw [h, if_neg (by omega), if_neg (by omega)]
      refine ⟨?_, rfl⟩
      show (g.currentEntry + 1).toNat = _
      rw [BitVec.toNat_add]; simp; omega
    · rw [Eg.queueStep_keyOn, ho] at h2; cases h2
  · cases h
  · rw [Eg.queueStep_currentEntry] at h; omega

/-- An EG.RENDER call keeps the hold-point lock: a cursor at the hold point pauses, one below it moves by at most one (R209). -/
theorem Eg.advance_holdLocked {g : Eg} (h : g.HoldLocked) : g.advance.HoldLocked := by
  have hr : g.resetCursor.HoldLocked ∧ g.resetCursor.keyOn = true := by
    rcases g.resetCursor_cases with ⟨-, h'⟩ | ⟨-, h'⟩ <;> rw [h']
    · exact ⟨⟨h.1, by simp⟩, h.1⟩
    · exact ⟨h, h.1⟩
  unfold Eg.advance
  rcases g.resetCursor.consumeStep_cases with ⟨-, hlt, h'⟩ | ⟨-, h'⟩ <;> rw [h']
  · rcases g.resetCursor.moveCursor_cases with ⟨-, h''⟩ | ⟨-, hf, h''⟩ | ⟨-, -, -, h''⟩ <;> rw [h'']
    · exact hr.1
    · have hne : g.resetCursor.currentEntry.toNat ≠ g.resetCursor.holdPoint.toNat := by simpa [hr.2] using hf
      have hle := hr.1.2
      refine ⟨hr.1.1, ?_⟩
      show (g.resetCursor.currentEntry + 1).toNat ≤ g.resetCursor.holdPoint.toNat
      rw [BitVec.toNat_add]
      simp
      omega
    · exact hr.1
  · exact hr.1

/-- A frame keeps the hold-point lock of every EG (R209). -/
theorem frame_holdLocked (lut : Byte → Int) {c : Chip} {e : Fin 16} (h : (c.eg e).HoldLocked) :
    ((frame lut c).1.eg e).HoldLocked := by
  rw [frame_eg]
  split
  · exact Eg.advance_holdLocked h
  · exact h

end Sys2Proof.Machine
end

