-- ==== Sys2Proof/Laws/Exec.lean ====
section
/-! SUPPORT. Everything one instruction can do to a state, said once: an instruction that gives a next state has one of the
effects below, so a rule about every instruction is a case analysis over twelve effects and not over 97 instructions. -/

namespace Sys2Proof.Machine

/-- What a write to an EG's sub-register keeps: the runtime fields always, `key_on` but for EG.CTRL, the hold point but for EG.HOLD
(R24, R158). -/
structure EgWrite (i : Instr) (f : Eg → Eg) : Prop where
  runtime   : ∀ g, Eg.sameRuntime g (f g)
  keyOn     : (∀ v, i ≠ .egCtrl v) → ∀ g, (f g).keyOn = g.keyOn
  holdPoint : (∀ v, i ≠ .egHold v) → ∀ g, (f g).holdPoint = g.holdPoint

/-- The effects of the instructions. -/
inductive Effect (i : Instr) (s t : State) : Prop where
  | same (h : t = s)
  | global (f : Global → Global) (h : t = s.setChip (s.chip.setG (f s.chip.g)))
  | data (v : Byte) (hi : i = .gWdata v) (h : t = s.setChip (s.chip.writeData v))
  | egWrite (f : Eg → Eg) (hf : EgWrite i f) (h : t = s.setChip (s.chip.mapEgs s.chip.g.selectsEg f))
  | chWrite (f : Channel → Channel) (hf : ∀ ch, Channel.sameRuntime ch (f ch))
      (h : t = s.setChip (s.chip.mapChs s.chip.g.selectsCh f))
  | init (hi : i = .init) (h : t = s.setChip Chip.reset)
  | lut (r : Returned) (h : t = s.setRet r)
  | egRender (e : Fin 16) (x : Bool) (hi : i = .egRender e x)
      (h : t = (s.setChip (egRender Config.expLut e x s.chip).1).setRet (.sample (egRender Config.expLut e x s.chip).2))
  | stageProcess (c : Fin 8) (k : Fin 2) (x : Sample) (side : Side) (hx : x ≠ 0x8000) (hi : i = .stageProcess c k x side)
      (h : t = (s.setChip (stageProcess c k x side s.chip).1).setRet (.sample (stageProcess c k x side s.chip).2))
  | chRender (c : Fin 8) (side : Side) (hi : i = .chRender c side)
      (h : t = (s.setChip (chRender Config.expLut c side s.chip).1).setRet (.sample (chRender Config.expLut c side s.chip).2))
  | frame (hi : i = .frame)
      (h : t = (s.setChip (frame Config.expLut s.chip).1).setRet (.stereo (frame Config.expLut s.chip).2))
  | render (n : BitVec 32) (hi : i = .render n)
      (h : t = (s.setChip (renderFrames Config.expLut n.toNat s.chip).1).emit (renderFrames Config.expLut n.toNat s.chip).2)

theorem next_inj {a t : State} (h : (.next a : Host.Outcome State Fault Refusal) = .next t) : t = a := by
  injection h with h
  exact h.symm

theorem Effect.of_same {i : Instr} {s t : State} (h : ignoredWrite s = .next t) : Effect i s t := .same (next_inj h)

theorem Effect.of_globalWrite {i : Instr} {f : Global → Global} {s t : State} (h : globalWrite f s = .next t) :
    Effect i s t := .global f (next_inj h)

theorem Effect.of_egBroadcast {i : Instr} {f : Eg → Eg} (hf : EgWrite i f) {s t : State}
    (h : egBroadcast f s = .next t) : Effect i s t := .egWrite f hf (next_inj h)

theorem Effect.of_chBroadcast {i : Instr} {f : Channel → Channel} (hf : ∀ ch, Channel.sameRuntime ch (f ch)) {s t : State}
    (h : chBroadcast f s = .next t) : Effect i s t := .chWrite f hf (next_inj h)

/-- An instruction that gives a next state has one of the effects. -/
theorem exec_effect {i : Instr} {s t : State} (h : exec i s = .next t) : Effect i s t := by
  cases i with
  | gCtrl v => exact Effect.of_globalWrite (f := fun g => { g with ctrl := v }) h
  | gChsel v => exact Effect.of_globalWrite (f := fun g => { g with chsel := v }) h
  | gEgselLo v => exact Effect.of_globalWrite (f := fun g => { g with egsel := setLo g.egsel v }) h
  | gEgselHi v => exact Effect.of_globalWrite (f := fun g => { g with egsel := setHi g.egsel v }) h
  | gWptrLo v => exact Effect.of_globalWrite (f := fun g => { g with wptr := setLo g.wptr v }) h
  | gWptrHi v => exact Effect.of_globalWrite (f := fun g => { g with wptr := setHi g.wptr v }) h
  | gWdata v => exact .data v rfl (next_inj h)
  | egCtrl v => exact Effect.of_egBroadcast (f := Eg.writeCtrl v) ⟨fun g => by simp [Eg.sameRuntime], fun h => absurd rfl (h _), fun _ _ => rfl⟩ h
  | egMul v => exact Effect.of_egBroadcast (f := Eg.writeMul v) ⟨fun g => by simp [Eg.sameRuntime], fun _ _ => rfl, fun _ _ => rfl⟩ h
  | egHold v => exact Effect.of_egBroadcast (f := Eg.writeHold v) ⟨fun g => by simp [Eg.sameRuntime], fun _ _ => rfl, fun h => absurd rfl (h _)⟩ h
  | egStride v => exact Effect.of_egBroadcast (f := Eg.writeStride v) ⟨fun g => by simp [Eg.sameRuntime], fun _ _ => rfl, fun _ _ => rfl⟩ h
  | egTbl0 v => exact Effect.of_egBroadcast (f := Eg.writeTable 0 v) ⟨fun g => by simp [Eg.sameRuntime], fun _ _ => rfl, fun _ _ => rfl⟩ h
  | egTbl1 v => exact Effect.of_egBroadcast (f := Eg.writeTable 1 v) ⟨fun g => by simp [Eg.sameRuntime], fun _ _ => rfl, fun _ _ => rfl⟩ h
  | egTbl2 v => exact Effect.of_egBroadcast (f := Eg.writeTable 2 v) ⟨fun g => by simp [Eg.sameRuntime], fun _ _ => rfl, fun _ _ => rfl⟩ h
  | egTbl3 v => exact Effect.of_egBroadcast (f := Eg.writeTable 3 v) ⟨fun g => by simp [Eg.sameRuntime], fun _ _ => rfl, fun _ _ => rfl⟩ h
  | egTbl4 v => exact Effect.of_egBroadcast (f := Eg.writeTable 4 v) ⟨fun g => by simp [Eg.sameRuntime], fun _ _ => rfl, fun _ _ => rfl⟩ h
  | egTbl5 v => exact Effect.of_egBroadcast (f := Eg.writeTable 5 v) ⟨fun g => by simp [Eg.sameRuntime], fun _ _ => rfl, fun _ _ => rfl⟩ h
  | egTbl6 v => exact Effect.of_egBroadcast (f := Eg.writeTable 6 v) ⟨fun g => by simp [Eg.sameRuntime], fun _ _ => rfl, fun _ _ => rfl⟩ h
  | egTbl7 v => exact Effect.of_egBroadcast (f := Eg.writeTable 7 v) ⟨fun g => by simp [Eg.sameRuntime], fun _ _ => rfl, fun _ _ => rfl⟩ h
  | egTbl8 v => exact Effect.of_egBroadcast (f := Eg.writeTable 8 v) ⟨fun g => by simp [Eg.sameRuntime], fun _ _ => rfl, fun _ _ => rfl⟩ h
  | egTbl9 v => exact Effect.of_egBroadcast (f := Eg.writeTable 9 v) ⟨fun g => by simp [Eg.sameRuntime], fun _ _ => rfl, fun _ _ => rfl⟩ h
  | egTbl10 v => exact Effect.of_egBroadcast (f := Eg.writeTable 10 v) ⟨fun g => by simp [Eg.sameRuntime], fun _ _ => rfl, fun _ _ => rfl⟩ h
  | egTbl11 v => exact Effect.of_egBroadcast (f := Eg.writeTable 11 v) ⟨fun g => by simp [Eg.sameRuntime], fun _ _ => rfl, fun _ _ => rfl⟩ h
  | egTbl12 v => exact Effect.of_egBroadcast (f := Eg.writeTable 12 v) ⟨fun g => by simp [Eg.sameRuntime], fun _ _ => rfl, fun _ _ => rfl⟩ h
  | egTbl13 v => exact Effect.of_egBroadcast (f := Eg.writeTable 13 v) ⟨fun g => by simp [Eg.sameRuntime], fun _ _ => rfl, fun _ _ => rfl⟩ h
  | egTbl14 v => exact Effect.of_egBroadcast (f := Eg.writeTable 14 v) ⟨fun g => by simp [Eg.sameRuntime], fun _ _ => rfl, fun _ _ => rfl⟩ h
  | egTbl15 v => exact Effect.of_egBroadcast (f := Eg.writeTable 15 v) ⟨fun g => by simp [Eg.sameRuntime], fun _ _ => rfl, fun _ _ => rfl⟩ h
  | egTbl16 v => exact Effect.of_egBroadcast (f := Eg.writeTable 16 v) ⟨fun g => by simp [Eg.sameRuntime], fun _ _ => rfl, fun _ _ => rfl⟩ h
  | egTbl17 v => exact Effect.of_egBroadcast (f := Eg.writeTable 17 v) ⟨fun g => by simp [Eg.sameRuntime], fun _ _ => rfl, fun _ _ => rfl⟩ h
  | egTbl18 v => exact Effect.of_egBroadcast (f := Eg.writeTable 18 v) ⟨fun g => by simp [Eg.sameRuntime], fun _ _ => rfl, fun _ _ => rfl⟩ h
  | egTbl19 v => exact Effect.of_egBroadcast (f := Eg.writeTable 19 v) ⟨fun g => by simp [Eg.sameRuntime], fun _ _ => rfl, fun _ _ => rfl⟩ h
  | egTbl20 v => exact Effect.of_egBroadcast (f := Eg.writeTable 20 v) ⟨fun g => by simp [Eg.sameRuntime], fun _ _ => rfl, fun _ _ => rfl⟩ h
  | egTbl21 v => exact Effect.of_egBroadcast (f := Eg.writeTable 21 v) ⟨fun g => by simp [Eg.sameRuntime], fun _ _ => rfl, fun _ _ => rfl⟩ h
  | egTbl22 v => exact Effect.of_egBroadcast (f := Eg.writeTable 22 v) ⟨fun g => by simp [Eg.sameRuntime], fun _ _ => rfl, fun _ _ => rfl⟩ h
  | egTbl23 v => exact Effect.of_egBroadcast (f := Eg.writeTable 23 v) ⟨fun g => by simp [Eg.sameRuntime], fun _ _ => rfl, fun _ _ => rfl⟩ h
  | egTbl24 v => exact Effect.of_egBroadcast (f := Eg.writeTable 24 v) ⟨fun g => by simp [Eg.sameRuntime], fun _ _ => rfl, fun _ _ => rfl⟩ h
  | egTbl25 v => exact Effect.of_egBroadcast (f := Eg.writeTable 25 v) ⟨fun g => by simp [Eg.sameRuntime], fun _ _ => rfl, fun _ _ => rfl⟩ h
  | egTbl26 v => exact Effect.of_egBroadcast (f := Eg.writeTable 26 v) ⟨fun g => by simp [Eg.sameRuntime], fun _ _ => rfl, fun _ _ => rfl⟩ h
  | egTbl27 v => exact Effect.of_egBroadcast (f := Eg.writeTable 27 v) ⟨fun g => by simp [Eg.sameRuntime], fun _ _ => rfl, fun _ _ => rfl⟩ h
  | egTbl28 v => exact Effect.of_egBroadcast (f := Eg.writeTable 28 v) ⟨fun g => by simp [Eg.sameRuntime], fun _ _ => rfl, fun _ _ => rfl⟩ h
  | egTbl29 v => exact Effect.of_egBroadcast (f := Eg.writeTable 29 v) ⟨fun g => by simp [Eg.sameRuntime], fun _ _ => rfl, fun _ _ => rfl⟩ h
  | egTbl30 v => exact Effect.of_egBroadcast (f := Eg.writeTable 30 v) ⟨fun g => by simp [Eg.sameRuntime], fun _ _ => rfl, fun _ _ => rfl⟩ h
  | egTbl31 v => exact Effect.of_egBroadcast (f := Eg.writeTable 31 v) ⟨fun g => by simp [Eg.sameRuntime], fun _ _ => rfl, fun _ _ => rfl⟩ h
  | egTbl32 v => exact Effect.of_egBroadcast (f := Eg.writeTable 32 v) ⟨fun g => by simp [Eg.sameRuntime], fun _ _ => rfl, fun _ _ => rfl⟩ h
  | egTbl33 v => exact Effect.of_egBroadcast (f := Eg.writeTable 33 v) ⟨fun g => by simp [Eg.sameRuntime], fun _ _ => rfl, fun _ _ => rfl⟩ h
  | egTbl34 v => exact Effect.of_egBroadcast (f := Eg.writeTable 34 v) ⟨fun g => by simp [Eg.sameRuntime], fun _ _ => rfl, fun _ _ => rfl⟩ h
  | egTbl35 v => exact Effect.of_egBroadcast (f := Eg.writeTable 35 v) ⟨fun g => by simp [Eg.sameRuntime], fun _ _ => rfl, fun _ _ => rfl⟩ h
  | egTbl36 v => exact Effect.of_egBroadcast (f := Eg.writeTable 36 v) ⟨fun g => by simp [Eg.sameRuntime], fun _ _ => rfl, fun _ _ => rfl⟩ h
  | egTbl37 v => exact Effect.of_egBroadcast (f := Eg.writeTable 37 v) ⟨fun g => by simp [Eg.sameRuntime], fun _ _ => rfl, fun _ _ => rfl⟩ h
  | egTbl38 v => exact Effect.of_egBroadcast (f := Eg.writeTable 38 v) ⟨fun g => by simp [Eg.sameRuntime], fun _ _ => rfl, fun _ _ => rfl⟩ h
  | egTbl39 v => exact Effect.of_egBroadcast (f := Eg.writeTable 39 v) ⟨fun g => by simp [Eg.sameRuntime], fun _ _ => rfl, fun _ _ => rfl⟩ h
  | chCtrl v => exact Effect.of_chBroadcast (f := Channel.writeCtrl v) (fun _ => ⟨rfl, rfl, rfl⟩) h
  | chVolL v => exact Effect.of_chBroadcast (f := Channel.writeVolL v) (fun _ => ⟨rfl, rfl, rfl⟩) h
  | chVolR v => exact Effect.of_chBroadcast (f := Channel.writeVolR v) (fun _ => ⟨rfl, rfl, rfl⟩) h
  | chAccmax v => exact Effect.of_chBroadcast (f := Channel.writeAccMax v) (fun _ => ⟨rfl, rfl, rfl⟩) h
  | chAeg v => exact Effect.of_chBroadcast (f := Channel.writeAeg v) (fun _ => ⟨rfl, rfl, rfl⟩) h
  | chFeg0 v => exact Effect.of_chBroadcast (f := Channel.writeFeg 0 v) (fun _ => ⟨rfl, rfl, rfl⟩) h
  | chFeg1 v => exact Effect.of_chBroadcast (f := Channel.writeFeg 1 v) (fun _ => ⟨rfl, rfl, rfl⟩) h
  | chFeg2 v => exact Effect.of_chBroadcast (f := Channel.writeFeg 2 v) (fun _ => ⟨rfl, rfl, rfl⟩) h
  | chFeg3 v => exact Effect.of_chBroadcast (f := Channel.writeFeg 3 v) (fun _ => ⟨rfl, rfl, rfl⟩) h
  | chFeg4 v => exact Effect.of_chBroadcast (f := Channel.writeFeg 4 v) (fun _ => ⟨rfl, rfl, rfl⟩) h
  | chFeg5 v => exact Effect.of_chBroadcast (f := Channel.writeFeg 5 v) (fun _ => ⟨rfl, rfl, rfl⟩) h
  | chFeg6 v => exact Effect.of_chBroadcast (f := Channel.writeFeg 6 v) (fun _ => ⟨rfl, rfl, rfl⟩) h
  | chFeg7 v => exact Effect.of_chBroadcast (f := Channel.writeFeg 7 v) (fun _ => ⟨rfl, rfl, rfl⟩) h
  | chFeg8 v => exact Effect.of_chBroadcast (f := Channel.writeFeg 8 v) (fun _ => ⟨rfl, rfl, rfl⟩) h
  | chFeg9 v => exact Effect.of_chBroadcast (f := Channel.writeFeg 9 v) (fun _ => ⟨rfl, rfl, rfl⟩) h
  | chLoopsLo v => exact Effect.of_chBroadcast (f := Channel.writeLoopStartLo v) (fun _ => ⟨rfl, rfl, rfl⟩) h
  | chLoopsHi v => exact Effect.of_chBroadcast (f := Channel.writeLoopStartHi v) (fun _ => ⟨rfl, rfl, rfl⟩) h
  | chLoopeLo v => exact Effect.of_chBroadcast (f := Channel.writeLoopEndLo v) (fun _ => ⟨rfl, rfl, rfl⟩) h
  | chLoopeHi v => exact Effect.of_chBroadcast (f := Channel.writeLoopEndHi v) (fun _ => ⟨rfl, rfl, rfl⟩) h
  | ignored0007 _ => exact Effect.of_same h
  | ignored0008 _ _ => exact Effect.of_same h
  | ignored0010 _ _ => exact Effect.of_same h
  | ignored0020 _ _ => exact Effect.of_same h
  | ignored006C _ _ => exact Effect.of_same h
  | ignored0070 _ _ => exact Effect.of_same h
  | ignored008F _ => exact Effect.of_same h
  | ignored0094 _ _ => exact Effect.of_same h
  | ignored0098 _ _ => exact Effect.of_same h
  | ignored00A0 _ _ => exact Effect.of_same h
  | ignored00C0 _ _ => exact Effect.of_same h
  | ignored0100 _ _ => exact Effect.of_same h
  | ignored0200 _ _ => exact Effect.of_same h
  | ignored0400 _ _ => exact Effect.of_same h
  | ignored0800 _ _ => exact Effect.of_same h
  | ignored1000 _ _ => exact Effect.of_same h
  | ignored2000 _ _ => exact Effect.of_same h
  | ignored4000 _ _ => exact Effect.of_same h
  | ignored8000 _ _ => exact Effect.of_same h
  | init => exact .init rfl (next_inj h)
  | destroy => exact Effect.of_same h
  | render n => exact .render n rfl (next_inj ((exec_render n s).symm.trans h))
  | frame => exact .frame rfl (next_inj ((exec_frame s).symm.trans h))
  | chRender c side => exact .chRender c side rfl (next_inj ((exec_chRender c side s).symm.trans h))
  | egRender e x => exact .egRender e x rfl (next_inj ((exec_egRender e x s).symm.trans h))
  | stageProcess c k x side =>
    by_cases hx : x = 0x8000
    · subst hx
      cases h
    · exact .stageProcess c k x side hx rfl (next_inj ((exec_stageProcess c k x side s hx).symm.trans h))
  | lut level => exact .lut _ (next_inj h)

end Sys2Proof.Machine
end

