-- ==== Sys2Proof/Laws/Memory.lean ====
section
/-! SUPPORT. Laws of sample memory (R72): reads after writes, and the canonical form. -/

namespace Sys2Proof.Machine

/-- A cell that no entry names reads as the reset contents. -/
theorem readCell_of_lt {m : Memory} {a : Nat} (h : ∀ cell ∈ m, a < cell.1) : readCell m a = Config.memDefault := by
  induction m with
  | nil => rfl
  | cons cell rest ih =>
    have h1 := h cell (by simp)
    simp only [readCell, if_neg (by omega : ¬ cell.1 = a)]
    exact ih fun x hx => h x (by simp [hx])

/-- A read of the cell just written, from a memory with rising addresses. -/
theorem readCell_writeCell_self (m : Memory) (a : Nat) (v : Byte) (h : m.Pairwise (fun x y => x.1 < y.1)) :
    readCell (writeCell m a v) a = v := by
  induction m with
  | nil => by_cases hv : v = Config.memDefault <;> simp [writeCell, readCell, hv]
  | cons cell rest ih =>
    have ⟨hr, hp⟩ := List.pairwise_cons.mp h
    simp only [writeCell]
    split
    · rename_i hlt
      split
      · rename_i hv
        rw [hv]
        refine readCell_of_lt fun x hx => ?_
        rcases List.mem_cons.mp hx with rfl | hx
        · exact hlt
        · exact Nat.lt_trans hlt (hr x hx)
      · simp [readCell]
    · split
      · rename_i heq
        split
        · rename_i hv
          rw [hv]
          exact readCell_of_lt fun x hx => heq ▸ hr x hx
        · simp [readCell]
      · rename_i h1 h2
        simp only [readCell, if_neg (fun h => h2 h.symm : ¬ cell.1 = a)]
        exact ih hp

/-- A read of another cell than the one written. -/
theorem readCell_writeCell_ne (m : Memory) {a b : Nat} (v : Byte) (hne : b ≠ a) :
    readCell (writeCell m a v) b = readCell m b := by
  induction m with
  | nil => by_cases hv : v = Config.memDefault <;> simp [writeCell, readCell, hv, hne.symm]
  | cons cell rest ih =>
    simp only [writeCell]
    split
    · split <;> simp [readCell, hne.symm]
    · split
      · rename_i heq
        split <;> simp [readCell, hne.symm, ← heq]
      · simp only [readCell, ih]

/-- An entry of a memory after a write is the written cell or an entry of before. -/
theorem mem_writeCell {m : Memory} {a : Nat} {v : Byte} {x : Host.Cell} (hx : x ∈ writeCell m a v) :
    (x = (a, v) ∧ v ≠ Config.memDefault) ∨ x ∈ m := by
  induction m with
  | nil =>
    simp only [writeCell] at hx
    split at hx <;> simp_all
  | cons cell rest ih =>
    simp only [writeCell] at hx
    split at hx
    · split at hx
      · exact .inr hx
      · rename_i hv
        rcases List.mem_cons.mp hx with rfl | hx
        · exact .inl ⟨rfl, hv⟩
        · exact .inr hx
    · split at hx
      · split at hx
        · exact .inr (by simp [hx])
        · rename_i hv
          rcases List.mem_cons.mp hx with rfl | hx
          · exact .inl ⟨rfl, hv⟩
          · exact .inr (by simp [hx])
      · rcases List.mem_cons.mp hx with rfl | hx
        · exact .inr (by simp)
        · rcases ih hx with h | h
          · exact .inl h
          · exact .inr (by simp [h])

/-- A write keeps the addresses rising. -/
theorem writeCell_rising (m : Memory) (a : Nat) (v : Byte) (h : m.Pairwise (fun x y => x.1 < y.1)) :
    (writeCell m a v).Pairwise (fun x y => x.1 < y.1) := by
  induction m with
  | nil => by_cases hv : v = Config.memDefault <;> simp [writeCell, hv]
  | cons cell rest ih =>
    have ⟨hr, hp⟩ := List.pairwise_cons.mp h
    simp only [writeCell]
    split
    · rename_i hlt
      split
      · exact h
      · refine List.pairwise_cons.mpr ⟨fun x hx => ?_, h⟩
        rcases List.mem_cons.mp hx with rfl | hx
        · exact hlt
        · exact Nat.lt_trans hlt (hr x hx)
    · split
      · rename_i heq
        split
        · exact hp
        · exact List.pairwise_cons.mpr ⟨fun x hx => heq ▸ hr x hx, hp⟩
      · rename_i h1 h2
        refine List.pairwise_cons.mpr ⟨fun x hx => ?_, ih hp⟩
        rcases mem_writeCell hx with ⟨rfl, -⟩ | hx
        · simp only; omega
        · exact hr x hx

/-- `MemWrite` keeps the canonical form. -/
theorem memWrite_wf {m : Memory} (h : Memory.wf m) (a : Nat) (v : Byte) : Memory.wf (memWrite m a v) := by
  refine ⟨writeCell_rising m _ v h.1, fun x hx => ?_⟩
  rcases mem_writeCell hx with ⟨rfl, hv⟩ | hx
  · exact ⟨Nat.mod_lt _ (by decide), hv⟩
  · exact h.2 x hx

theorem reset_mem_wf : Memory.wf State.reset.chip.mem := by decide

theorem memRead_memWrite_self {m : Memory} (h : Memory.wf m) {a b : Nat} (v : Byte)
    (hab : b % Config.memSize = a % Config.memSize) : memRead (memWrite m a v) b = v := by
  simp only [memRead, memWrite, hab]
  exact readCell_writeCell_self m _ v h.1

theorem memRead_memWrite_ne (m : Memory) {a b : Nat} (v : Byte)
    (hab : b % Config.memSize ≠ a % Config.memSize) : memRead (memWrite m a v) b = memRead m b :=
  readCell_writeCell_ne m v hab

/-- The WDATA write keeps the canonical form. -/
theorem Chip.writeData_mem_wf {c : Chip} (h : Memory.wf c.mem) (v : Byte) : Memory.wf (c.writeData v).mem :=
  memWrite_wf h _ v

end Sys2Proof.Machine
end

