-- ==== Sys2Proof/Laws/PerInstr.lean ====
section
/-! SUPPORT. The decoder and the encoder, instruction by instruction: decoding an encoded well-formed instruction gives it
back (family RoundTrip of LAWS.json). -/

namespace Sys2Proof

@[simp] theorem pokeRegister_pokeWord (a : Reg16) (v : Byte) : pokeRegister (pokeWord a v) = a := by
  apply BitVec.eq_of_toNat_eq
  have := a.isLt
  have := v.isLt
  simp only [pokeRegister, pokeWord, BitVec.extractLsb'_toNat, BitVec.toNat_append, Nat.shiftRight_eq_div_pow]
  rw [← Nat.shiftLeft_add_eq_or_of_lt ‹v.toNat < 2 ^ 8›, Nat.shiftLeft_eq]
  omega

@[simp] theorem pokeValue_pokeWord (a : Reg16) (v : Byte) : pokeValue (pokeWord a v) = v := by
  apply BitVec.eq_of_toNat_eq
  have := v.isLt
  simp only [pokeValue, pokeWord, BitVec.extractLsb'_toNat, BitVec.toNat_append, Nat.shiftRight_zero]
  rw [← Nat.shiftLeft_add_eq_or_of_lt ‹v.toNat < 2 ^ 8›, Nat.shiftLeft_eq]
  omega

theorem pokeWord_parts (w : BitVec 24) : pokeWord (pokeRegister w) (pokeValue w) = w := by
  apply BitVec.eq_of_toNat_eq
  have := w.isLt
  simp only [pokeRegister, pokeValue, pokeWord, BitVec.extractLsb'_toNat, BitVec.toNat_append,
    Nat.shiftRight_eq_div_pow]
  rw [← Nat.shiftLeft_add_eq_or_of_lt (by omega), Nat.shiftLeft_eq]
  omega

theorem inBlock_iff {lo hi : Nat} {a : Reg16} : inBlock lo hi a = true ↔ lo ≤ a.toNat ∧ a.toNat ≤ hi := by
  simp [inBlock]

/-- An address outside the three blocks decodes to its unassigned block (R101 case 4). -/
theorem decodePoke_unassigned (a : Reg16) (v : Byte) (h : (7 ≤ a.toNat ∧ a.toNat < 64) ∨ (108 ≤ a.toNat ∧ a.toNat < 128) ∨
    148 ≤ a.toNat) : decodePoke a v = .ok (decodeUnassigned a v) := by
  unfold decodePoke globalBase egBase chBase
  simp (disch := omega) only [if_neg]

/-- An address of the EG broadcast block decodes by its sub-register index (R101 case 2). -/
theorem decodePoke_eg (a : Reg16) (j : Nat) (v : Byte) (h : a.toNat = 64 + j) (hj : j ≤ 43) :
    decodePoke a v = decodeEg j v := by
  have hj' : a.toNat - 64 = j := by omega
  unfold decodePoke globalBase egBase chBase
  simp (disch := omega) only [if_neg, if_pos, hj']

/-- An address of the channel broadcast block decodes by its sub-register index (R101 case 3). -/
theorem decodePoke_ch (a : Reg16) (j : Nat) (v : Byte) (h : a.toNat = 128 + j) (hj : j ≤ 19) :
    decodePoke a v = decodeCh j v := by
  have hj' : a.toNat - 128 = j := by omega
  unfold decodePoke globalBase egBase chBase
  simp (disch := omega) only [if_neg, if_pos, hj']

/-- An address of the global block decodes by its sub-register (R101 case 1). -/
theorem decodePoke_global (a : Reg16) (v : Byte) (h : a.toNat ≤ 6) :
    decodePoke a v = decodeGlobal a.toNat v := by
  unfold decodePoke globalBase egBase chBase
  simp (disch := omega) only [if_pos, Nat.sub_zero]

namespace Laws.RoundTrip

/-- Decoding what the encoder gives for the instruction, when it is well-formed, gives the instruction back. -/
def Statement (i : Instr) : Prop := i.wellFormed = true → ∀ t, encode i = some t → decode t = .ok i

theorem of_poke {i : Instr} {a : Reg16} {v : Byte} (he : encode i = some (.poke (pokeWord a v)))
    (hd : i.wellFormed = true → decodePoke a v = .ok i) : Statement i := by
  intro hw t ht
  obtain rfl := Option.some.inj (he.symm.trans ht)
  simp only [decode, pokeRegister_pokeWord, pokeValue_pokeWord]
  exact hd hw

theorem gCtrl (v : Byte) : Statement (.gCtrl v) :=
  of_poke (a := 0x0000) (v := v) rfl fun _ => (decodePoke_global _ v (by decide)).trans rfl

theorem gChsel (v : Byte) : Statement (.gChsel v) :=
  of_poke (a := 0x0001) (v := v) rfl fun _ => (decodePoke_global _ v (by decide)).trans rfl

theorem gEgselLo (v : Byte) : Statement (.gEgselLo v) :=
  of_poke (a := 0x0002) (v := v) rfl fun _ => (decodePoke_global _ v (by decide)).trans rfl

theorem gEgselHi (v : Byte) : Statement (.gEgselHi v) :=
  of_poke (a := 0x0003) (v := v) rfl fun _ => (decodePoke_global _ v (by decide)).trans rfl

theorem gWptrLo (v : Byte) : Statement (.gWptrLo v) :=
  of_poke (a := 0x0004) (v := v) rfl fun _ => (decodePoke_global _ v (by decide)).trans rfl

theorem gWptrHi (v : Byte) : Statement (.gWptrHi v) :=
  of_poke (a := 0x0005) (v := v) rfl fun _ => (decodePoke_global _ v (by decide)).trans rfl

theorem gWdata (v : Byte) : Statement (.gWdata v) :=
  of_poke (a := 0x0006) (v := v) rfl fun _ => (decodePoke_global _ v (by decide)).trans rfl

theorem egCtrl (v : Byte) : Statement (.egCtrl v) :=
  of_poke (a := 0x0040) (v := v) rfl fun _ => (decodePoke_eg _ 0 v (by decide) (by decide)).trans rfl

theorem egMul (v : Byte) : Statement (.egMul v) :=
  of_poke (a := 0x0041) (v := v) rfl fun _ => (decodePoke_eg _ 1 v (by decide) (by decide)).trans rfl

theorem egHold (v : Byte) : Statement (.egHold v) :=
  of_poke (a := 0x0042) (v := v) rfl fun _ => (decodePoke_eg _ 2 v (by decide) (by decide)).trans rfl

theorem egStride (v : Byte) : Statement (.egStride v) :=
  of_poke (a := 0x0043) (v := v) rfl fun _ => (decodePoke_eg _ 3 v (by decide) (by decide)).trans rfl

theorem egTbl0 (v : Byte) : Statement (.egTbl0 v) :=
  of_poke (a := 0x0044) (v := v) rfl fun _ => (decodePoke_eg _ 4 v (by decide) (by decide)).trans rfl

theorem egTbl1 (v : Byte) : Statement (.egTbl1 v) :=
  of_poke (a := 0x0045) (v := v) rfl fun _ => (decodePoke_eg _ 5 v (by decide) (by decide)).trans rfl

theorem egTbl2 (v : Byte) : Statement (.egTbl2 v) :=
  of_poke (a := 0x0046) (v := v) rfl fun _ => (decodePoke_eg _ 6 v (by decide) (by decide)).trans rfl

theorem egTbl3 (v : Byte) : Statement (.egTbl3 v) :=
  of_poke (a := 0x0047) (v := v) rfl fun _ => (decodePoke_eg _ 7 v (by decide) (by decide)).trans rfl

theorem egTbl4 (v : Byte) : Statement (.egTbl4 v) :=
  of_poke (a := 0x0048) (v := v) rfl fun _ => (decodePoke_eg _ 8 v (by decide) (by decide)).trans rfl

theorem egTbl5 (v : Byte) : Statement (.egTbl5 v) :=
  of_poke (a := 0x0049) (v := v) rfl fun _ => (decodePoke_eg _ 9 v (by decide) (by decide)).trans rfl

theorem egTbl6 (v : Byte) : Statement (.egTbl6 v) :=
  of_poke (a := 0x004A) (v := v) rfl fun _ => (decodePoke_eg _ 10 v (by decide) (by decide)).trans rfl

theorem egTbl7 (v : Byte) : Statement (.egTbl7 v) :=
  of_poke (a := 0x004B) (v := v) rfl fun _ => (decodePoke_eg _ 11 v (by decide) (by decide)).trans rfl

theorem egTbl8 (v : Byte) : Statement (.egTbl8 v) :=
  of_poke (a := 0x004C) (v := v) rfl fun _ => (decodePoke_eg _ 12 v (by decide) (by decide)).trans rfl

theorem egTbl9 (v : Byte) : Statement (.egTbl9 v) :=
  of_poke (a := 0x004D) (v := v) rfl fun _ => (decodePoke_eg _ 13 v (by decide) (by decide)).trans rfl

theorem egTbl10 (v : Byte) : Statement (.egTbl10 v) :=
  of_poke (a := 0x004E) (v := v) rfl fun _ => (decodePoke_eg _ 14 v (by decide) (by decide)).trans rfl

theorem egTbl11 (v : Byte) : Statement (.egTbl11 v) :=
  of_poke (a := 0x004F) (v := v) rfl fun _ => (decodePoke_eg _ 15 v (by decide) (by decide)).trans rfl

theorem egTbl12 (v : Byte) : Statement (.egTbl12 v) :=
  of_poke (a := 0x0050) (v := v) rfl fun _ => (decodePoke_eg _ 16 v (by decide) (by decide)).trans rfl

theorem egTbl13 (v : Byte) : Statement (.egTbl13 v) :=
  of_poke (a := 0x0051) (v := v) rfl fun _ => (decodePoke_eg _ 17 v (by decide) (by decide)).trans rfl

theorem egTbl14 (v : Byte) : Statement (.egTbl14 v) :=
  of_poke (a := 0x0052) (v := v) rfl fun _ => (decodePoke_eg _ 18 v (by decide) (by decide)).trans rfl

theorem egTbl15 (v : Byte) : Statement (.egTbl15 v) :=
  of_poke (a := 0x0053) (v := v) rfl fun _ => (decodePoke_eg _ 19 v (by decide) (by decide)).trans rfl

theorem egTbl16 (v : Byte) : Statement (.egTbl16 v) :=
  of_poke (a := 0x0054) (v := v) rfl fun _ => (decodePoke_eg _ 20 v (by decide) (by decide)).trans rfl

theorem egTbl17 (v : Byte) : Statement (.egTbl17 v) :=
  of_poke (a := 0x0055) (v := v) rfl fun _ => (decodePoke_eg _ 21 v (by decide) (by decide)).trans rfl

theorem egTbl18 (v : Byte) : Statement (.egTbl18 v) :=
  of_poke (a := 0x0056) (v := v) rfl fun _ => (decodePoke_eg _ 22 v (by decide) (by decide)).trans rfl

theorem egTbl19 (v : Byte) : Statement (.egTbl19 v) :=
  of_poke (a := 0x0057) (v := v) rfl fun _ => (decodePoke_eg _ 23 v (by decide) (by decide)).trans rfl

theorem egTbl20 (v : Byte) : Statement (.egTbl20 v) :=
  of_poke (a := 0x0058) (v := v) rfl fun _ => (decodePoke_eg _ 24 v (by decide) (by decide)).trans rfl

theorem egTbl21 (v : Byte) : Statement (.egTbl21 v) :=
  of_poke (a := 0x0059) (v := v) rfl fun _ => (decodePoke_eg _ 25 v (by decide) (by decide)).trans rfl

theorem egTbl22 (v : Byte) : Statement (.egTbl22 v) :=
  of_poke (a := 0x005A) (v := v) rfl fun _ => (decodePoke_eg _ 26 v (by decide) (by decide)).trans rfl

theorem egTbl23 (v : Byte) : Statement (.egTbl23 v) :=
  of_poke (a := 0x005B) (v := v) rfl fun _ => (decodePoke_eg _ 27 v (by decide) (by decide)).trans rfl

theorem egTbl24 (v : Byte) : Statement (.egTbl24 v) :=
  of_poke (a := 0x005C) (v := v) rfl fun _ => (decodePoke_eg _ 28 v (by decide) (by decide)).trans rfl

theorem egTbl25 (v : Byte) : Statement (.egTbl25 v) :=
  of_poke (a := 0x005D) (v := v) rfl fun _ => (decodePoke_eg _ 29 v (by decide) (by decide)).trans rfl

theorem egTbl26 (v : Byte) : Statement (.egTbl26 v) :=
  of_poke (a := 0x005E) (v := v) rfl fun _ => (decodePoke_eg _ 30 v (by decide) (by decide)).trans rfl

theorem egTbl27 (v : Byte) : Statement (.egTbl27 v) :=
  of_poke (a := 0x005F) (v := v) rfl fun _ => (decodePoke_eg _ 31 v (by decide) (by decide)).trans rfl

theorem egTbl28 (v : Byte) : Statement (.egTbl28 v) :=
  of_poke (a := 0x0060) (v := v) rfl fun _ => (decodePoke_eg _ 32 v (by decide) (by decide)).trans rfl

theorem egTbl29 (v : Byte) : Statement (.egTbl29 v) :=
  of_poke (a := 0x0061) (v := v) rfl fun _ => (decodePoke_eg _ 33 v (by decide) (by decide)).trans rfl

theorem egTbl30 (v : Byte) : Statement (.egTbl30 v) :=
  of_poke (a := 0x0062) (v := v) rfl fun _ => (decodePoke_eg _ 34 v (by decide) (by decide)).trans rfl

theorem egTbl31 (v : Byte) : Statement (.egTbl31 v) :=
  of_poke (a := 0x0063) (v := v) rfl fun _ => (decodePoke_eg _ 35 v (by decide) (by decide)).trans rfl

theorem egTbl32 (v : Byte) : Statement (.egTbl32 v) :=
  of_poke (a := 0x0064) (v := v) rfl fun _ => (decodePoke_eg _ 36 v (by decide) (by decide)).trans rfl

theorem egTbl33 (v : Byte) : Statement (.egTbl33 v) :=
  of_poke (a := 0x0065) (v := v) rfl fun _ => (decodePoke_eg _ 37 v (by decide) (by decide)).trans rfl

theorem egTbl34 (v : Byte) : Statement (.egTbl34 v) :=
  of_poke (a := 0x0066) (v := v) rfl fun _ => (decodePoke_eg _ 38 v (by decide) (by decide)).trans rfl

theorem egTbl35 (v : Byte) : Statement (.egTbl35 v) :=
  of_poke (a := 0x0067) (v := v) rfl fun _ => (decodePoke_eg _ 39 v (by decide) (by decide)).trans rfl

theorem egTbl36 (v : Byte) : Statement (.egTbl36 v) :=
  of_poke (a := 0x0068) (v := v) rfl fun _ => (decodePoke_eg _ 40 v (by decide) (by decide)).trans rfl

theorem egTbl37 (v : Byte) : Statement (.egTbl37 v) :=
  of_poke (a := 0x0069) (v := v) rfl fun _ => (decodePoke_eg _ 41 v (by decide) (by decide)).trans rfl

theorem egTbl38 (v : Byte) : Statement (.egTbl38 v) :=
  of_poke (a := 0x006A) (v := v) rfl fun _ => (decodePoke_eg _ 42 v (by decide) (by decide)).trans rfl

theorem egTbl39 (v : Byte) : Statement (.egTbl39 v) :=
  of_poke (a := 0x006B) (v := v) rfl fun _ => (decodePoke_eg _ 43 v (by decide) (by decide)).trans rfl

theorem chCtrl (v : Byte) : Statement (.chCtrl v) :=
  of_poke (a := 0x0080) (v := v) rfl fun _ => (decodePoke_ch _ 0 v (by decide) (by decide)).trans rfl

theorem chVolL (v : Byte) : Statement (.chVolL v) :=
  of_poke (a := 0x0081) (v := v) rfl fun _ => (decodePoke_ch _ 1 v (by decide) (by decide)).trans rfl

theorem chVolR (v : Byte) : Statement (.chVolR v) :=
  of_poke (a := 0x0082) (v := v) rfl fun _ => (decodePoke_ch _ 2 v (by decide) (by decide)).trans rfl

theorem chAccmax (v : Byte) : Statement (.chAccmax v) :=
  of_poke (a := 0x0083) (v := v) rfl fun _ => (decodePoke_ch _ 3 v (by decide) (by decide)).trans rfl

theorem chAeg (v : Byte) : Statement (.chAeg v) :=
  of_poke (a := 0x0084) (v := v) rfl fun _ => (decodePoke_ch _ 4 v (by decide) (by decide)).trans rfl

theorem chFeg0 (v : Byte) : Statement (.chFeg0 v) :=
  of_poke (a := 0x0085) (v := v) rfl fun _ => (decodePoke_ch _ 5 v (by decide) (by decide)).trans rfl

theorem chFeg1 (v : Byte) : Statement (.chFeg1 v) :=
  of_poke (a := 0x0086) (v := v) rfl fun _ => (decodePoke_ch _ 6 v (by decide) (by decide)).trans rfl

theorem chFeg2 (v : Byte) : Statement (.chFeg2 v) :=
  of_poke (a := 0x0087) (v := v) rfl fun _ => (decodePoke_ch _ 7 v (by decide) (by decide)).trans rfl

theorem chFeg3 (v : Byte) : Statement (.chFeg3 v) :=
  of_poke (a := 0x0088) (v := v) rfl fun _ => (decodePoke_ch _ 8 v (by decide) (by decide)).trans rfl

theorem chFeg4 (v : Byte) : Statement (.chFeg4 v) :=
  of_poke (a := 0x0089) (v := v) rfl fun _ => (decodePoke_ch _ 9 v (by decide) (by decide)).trans rfl

theorem chFeg5 (v : Byte) : Statement (.chFeg5 v) :=
  of_poke (a := 0x008A) (v := v) rfl fun _ => (decodePoke_ch _ 10 v (by decide) (by decide)).trans rfl

theorem chFeg6 (v : Byte) : Statement (.chFeg6 v) :=
  of_poke (a := 0x008B) (v := v) rfl fun _ => (decodePoke_ch _ 11 v (by decide) (by decide)).trans rfl

theorem chFeg7 (v : Byte) : Statement (.chFeg7 v) :=
  of_poke (a := 0x008C) (v := v) rfl fun _ => (decodePoke_ch _ 12 v (by decide) (by decide)).trans rfl

theorem chFeg8 (v : Byte) : Statement (.chFeg8 v) :=
  of_poke (a := 0x008D) (v := v) rfl fun _ => (decodePoke_ch _ 13 v (by decide) (by decide)).trans rfl

theorem chFeg9 (v : Byte) : Statement (.chFeg9 v) :=
  of_poke (a := 0x008E) (v := v) rfl fun _ => (decodePoke_ch _ 14 v (by decide) (by decide)).trans rfl

theorem chLoopsLo (v : Byte) : Statement (.chLoopsLo v) :=
  of_poke (a := 0x0090) (v := v) rfl fun _ => (decodePoke_ch _ 16 v (by decide) (by decide)).trans rfl

theorem chLoopsHi (v : Byte) : Statement (.chLoopsHi v) :=
  of_poke (a := 0x0091) (v := v) rfl fun _ => (decodePoke_ch _ 17 v (by decide) (by decide)).trans rfl

theorem chLoopeLo (v : Byte) : Statement (.chLoopeLo v) :=
  of_poke (a := 0x0092) (v := v) rfl fun _ => (decodePoke_ch _ 18 v (by decide) (by decide)).trans rfl

theorem chLoopeHi (v : Byte) : Statement (.chLoopeHi v) :=
  of_poke (a := 0x0093) (v := v) rfl fun _ => (decodePoke_ch _ 19 v (by decide) (by decide)).trans rfl

theorem ignored0007 (v : Byte) : Statement (.ignored0007 v) :=
  of_poke (a := 0x0007) (v := v) rfl fun _ => (decodePoke_unassigned _ v (by decide)).trans rfl

theorem ignored0008 (a : Reg16) (v : Byte) : Statement (.ignored0008 a v) := by
  refine of_poke rfl fun hw => ?_
  have h := inBlock_iff.mp hw
  rw [decodePoke_unassigned a v (by omega), decodeUnassigned]
  simp (disch := omega) only [if_neg, if_pos]

theorem ignored0010 (a : Reg16) (v : Byte) : Statement (.ignored0010 a v) := by
  refine of_poke rfl fun hw => ?_
  have h := inBlock_iff.mp hw
  rw [decodePoke_unassigned a v (by omega), decodeUnassigned]
  simp (disch := omega) only [if_neg, if_pos]

theorem ignored0020 (a : Reg16) (v : Byte) : Statement (.ignored0020 a v) := by
  refine of_poke rfl fun hw => ?_
  have h := inBlock_iff.mp hw
  rw [decodePoke_unassigned a v (by omega), decodeUnassigned]
  simp (disch := omega) only [if_neg, if_pos]

theorem ignored006C (a : Reg16) (v : Byte) : Statement (.ignored006C a v) := by
  refine of_poke rfl fun hw => ?_
  have h := inBlock_iff.mp hw
  rw [decodePoke_unassigned a v (by omega), decodeUnassigned]
  simp (disch := omega) only [if_neg, if_pos]

theorem ignored0070 (a : Reg16) (v : Byte) : Statement (.ignored0070 a v) := by
  refine of_poke rfl fun hw => ?_
  have h := inBlock_iff.mp hw
  rw [decodePoke_unassigned a v (by omega), decodeUnassigned]
  simp (disch := omega) only [if_neg, if_pos]

theorem ignored008F (v : Byte) : Statement (.ignored008F v) :=
  of_poke (a := 0x008F) (v := v) rfl fun _ => (decodePoke_ch _ 15 v (by decide) (by decide)).trans rfl

theorem ignored0094 (a : Reg16) (v : Byte) : Statement (.ignored0094 a v) := by
  refine of_poke rfl fun hw => ?_
  have h := inBlock_iff.mp hw
  rw [decodePoke_unassigned a v (by omega), decodeUnassigned]
  simp (disch := omega) only [if_neg, if_pos]

theorem ignored0098 (a : Reg16) (v : Byte) : Statement (.ignored0098 a v) := by
  refine of_poke rfl fun hw => ?_
  have h := inBlock_iff.mp hw
  rw [decodePoke_unassigned a v (by omega), decodeUnassigned]
  simp (disch := omega) only [if_neg, if_pos]

theorem ignored00A0 (a : Reg16) (v : Byte) : Statement (.ignored00A0 a v) := by
  refine of_poke rfl fun hw => ?_
  have h := inBlock_iff.mp hw
  rw [decodePoke_unassigned a v (by omega), decodeUnassigned]
  simp (disch := omega) only [if_neg, if_pos]

theorem ignored00C0 (a : Reg16) (v : Byte) : Statement (.ignored00C0 a v) := by
  refine of_poke rfl fun hw => ?_
  have h := inBlock_iff.mp hw
  rw [decodePoke_unassigned a v (by omega), decodeUnassigned]
  simp (disch := omega) only [if_neg, if_pos]

theorem ignored0100 (a : Reg16) (v : Byte) : Statement (.ignored0100 a v) := by
  refine of_poke rfl fun hw => ?_
  have h := inBlock_iff.mp hw
  rw [decodePoke_unassigned a v (by omega), decodeUnassigned]
  simp (disch := omega) only [if_neg, if_pos]

theorem ignored0200 (a : Reg16) (v : Byte) : Statement (.ignored0200 a v) := by
  refine of_poke rfl fun hw => ?_
  have h := inBlock_iff.mp hw
  rw [decodePoke_unassigned a v (by omega), decodeUnassigned]
  simp (disch := omega) only [if_neg, if_pos]

theorem ignored0400 (a : Reg16) (v : Byte) : Statement (.ignored0400 a v) := by
  refine of_poke rfl fun hw => ?_
  have h := inBlock_iff.mp hw
  rw [decodePoke_unassigned a v (by omega), decodeUnassigned]
  simp (disch := omega) only [if_neg, if_pos]

theorem ignored0800 (a : Reg16) (v : Byte) : Statement (.ignored0800 a v) := by
  refine of_poke rfl fun hw => ?_
  have h := inBlock_iff.mp hw
  rw [decodePoke_unassigned a v (by omega), decodeUnassigned]
  simp (disch := omega) only [if_neg, if_pos]

theorem ignored1000 (a : Reg16) (v : Byte) : Statement (.ignored1000 a v) := by
  refine of_poke rfl fun hw => ?_
  have h := inBlock_iff.mp hw
  rw [decodePoke_unassigned a v (by omega), decodeUnassigned]
  simp (disch := omega) only [if_neg, if_pos]

theorem ignored2000 (a : Reg16) (v : Byte) : Statement (.ignored2000 a v) := by
  refine of_poke rfl fun hw => ?_
  have h := inBlock_iff.mp hw
  rw [decodePoke_unassigned a v (by omega), decodeUnassigned]
  simp (disch := omega) only [if_neg, if_pos]

theorem ignored4000 (a : Reg16) (v : Byte) : Statement (.ignored4000 a v) := by
  refine of_poke rfl fun hw => ?_
  have h := inBlock_iff.mp hw
  rw [decodePoke_unassigned a v (by omega), decodeUnassigned]
  simp (disch := omega) only [if_neg, if_pos]

theorem ignored8000 (a : Reg16) (v : Byte) : Statement (.ignored8000 a v) := by
  refine of_poke rfl fun hw => ?_
  have h := inBlock_iff.mp hw
  rw [decodePoke_unassigned a v (by omega), decodeUnassigned]
  simp (disch := omega) only [if_neg]

theorem init : Statement .init := by
  rintro - t ⟨⟩; rfl

theorem destroy : Statement .destroy := by
  rintro - t ⟨⟩; rfl

theorem render (n : BitVec 32) : Statement (.render n) := by
  rintro - t ⟨⟩; rfl

theorem frame : Statement (.frame) := by
  rintro - t ⟨⟩

theorem chRender (c : Fin 8) (side : Side) : Statement (.chRender c side) := by
  rintro - t ⟨⟩

theorem egRender (e : Fin 16) (x : Bool) : Statement (.egRender e x) := by
  rintro - t ⟨⟩

theorem stageProcess (c : Fin 8) (k : Fin 2) (x : Sample) (side : Side) : Statement (.stageProcess c k x side) := by
  rintro - t ⟨⟩

theorem lut (level : Byte) : Statement (.lut level) := by
  rintro - t ⟨⟩

end Laws.RoundTrip

end Sys2Proof
end

