-- ==== Sys2Proof/Tests/Slice0.lean ====
section
/-! SUPPORT. The model's own tests. Expected results are the spec's: the tables of 30_encoding.md, the vectors of
95_test_vectors.md (K, E, B, H, V) and the examples of 40_poke_and_host_ops.md; then a witness for each statement with hypotheses. -/

namespace Sys2Proof.Tests

open Sys2Proof Sys2Proof.Machine

/-- The state an outcome gives, or the state before it. -/
def after (i : Instr) (s : State) : State :=
  match exec i s with
  | .next t => t
  | _ => s

/-- The reset state with a pair of select masks. -/
def selecting (egs : Reg16) (chs : Byte) : State :=
  { State.reset with chip := State.reset.chip.setG { Global.reset with egsel := egs, chsel := chs } }

/-- The reset state with one EG set up. -/
def withEg (e : Fin 16) (g : Eg) : State := { State.reset with chip := State.reset.chip.setEg e g }

/-- The reset state with one channel set up. -/
def withCh (c : Fin 8) (ch : Channel) : State := { State.reset with chip := State.reset.chip.setCh c ch }

/-- The identity fixture of 95_test_vectors.md. -/
def identityLut (b : Byte) : Int := b.toNat

/-- The fixture EXP_LUT(i) = 257 i of 95_test_vectors.md. -/
def wideLut (b : Byte) : Int := 257 * b.toNat

/-- A stage with the coefficients given and a Left line. -/
def stageOf (k0 k1 k2 k3 k4 : Int) (d : DelayLine) : Stage :=
  { coeff := #v[i16 k0, i16 k1, i16 k2, i16 k3, i16 k4], left := d, right := DelayLine.reset }

/-- A delay line of integers. -/
def lineOf (d0 d1 d2 : Int) : DelayLine := { d0 := i16 d0, d1 := i16 d1, d2 := i16 d2 }

/-! ### WellFormed: an ill-formed term for each check -/

/-- A register one below or one above its ignored block (R111). -/
theorem test_wellFormed_rejects_register_below_or_above_block :
    Instr.wellFormed (.ignored0008 0x0007 0) = false ∧
    Instr.wellFormed (.ignored0008 0x0010 0) = false ∧
    Instr.wellFormed (.ignored0010 0x000F 0) = false ∧
    Instr.wellFormed (.ignored0010 0x0020 0) = false ∧
    Instr.wellFormed (.ignored0020 0x001F 0) = false ∧
    Instr.wellFormed (.ignored0020 0x0040 0) = false ∧
    Instr.wellFormed (.ignored006C 0x006B 0) = false ∧
    Instr.wellFormed (.ignored006C 0x0070 0) = false ∧
    Instr.wellFormed (.ignored0070 0x006F 0) = false ∧
    Instr.wellFormed (.ignored0070 0x0080 0) = false ∧
    Instr.wellFormed (.ignored0094 0x0093 0) = false ∧
    Instr.wellFormed (.ignored0094 0x0098 0) = false ∧
    Instr.wellFormed (.ignored0098 0x0097 0) = false ∧
    Instr.wellFormed (.ignored0098 0x00A0 0) = false ∧
    Instr.wellFormed (.ignored00A0 0x009F 0) = false ∧
    Instr.wellFormed (.ignored00A0 0x00C0 0) = false := by
  decide

/-- The same for the larger blocks (R111). -/
theorem test_wellFormed_rejects_register_outside_large_block :
    Instr.wellFormed (.ignored00C0 0x00BF 0) = false ∧
    Instr.wellFormed (.ignored00C0 0x0100 0) = false ∧
    Instr.wellFormed (.ignored0100 0x00FF 0) = false ∧
    Instr.wellFormed (.ignored0100 0x0200 0) = false ∧
    Instr.wellFormed (.ignored0200 0x01FF 0) = false ∧
    Instr.wellFormed (.ignored0200 0x0400 0) = false ∧
    Instr.wellFormed (.ignored0400 0x03FF 0) = false ∧
    Instr.wellFormed (.ignored0400 0x0800 0) = false ∧
    Instr.wellFormed (.ignored0800 0x07FF 0) = false ∧
    Instr.wellFormed (.ignored0800 0x1000 0) = false ∧
    Instr.wellFormed (.ignored1000 0x0FFF 0) = false ∧
    Instr.wellFormed (.ignored1000 0x2000 0) = false ∧
    Instr.wellFormed (.ignored2000 0x1FFF 0) = false ∧
    Instr.wellFormed (.ignored2000 0x4000 0) = false ∧
    Instr.wellFormed (.ignored4000 0x3FFF 0) = false ∧
    Instr.wellFormed (.ignored4000 0x8000 0) = false ∧
    Instr.wellFormed (.ignored8000 0x7FFF 0) = false := by
  decide

/-- STAGE.PROCESS on -32768 (R230, U4). -/
theorem test_wellFormed_rejects_stage_input :
    Instr.wellFormed (.stageProcess 0 0 0x8000 .left) = false ∧
    Instr.wellFormed (.stageProcess 7 1 0x8000 .right) = false ∧
    Instr.wellFormed (.stageProcess 0 0 0x8001 .left) = true := by
  decide

/-! ### Decode: a word of every row, written from R100 and the tables of R102 to R104 -/

/-- R102. -/
theorem test_decode_global :
    decode (.poke 0x0000A0#24) = .ok (.gCtrl 0xA0) ∧
    decode (.poke 0x0001A1#24) = .ok (.gChsel 0xA1) ∧
    decode (.poke 0x0002A2#24) = .ok (.gEgselLo 0xA2) ∧
    decode (.poke 0x0003A3#24) = .ok (.gEgselHi 0xA3) ∧
    decode (.poke 0x0004A4#24) = .ok (.gWptrLo 0xA4) ∧
    decode (.poke 0x0005A5#24) = .ok (.gWptrHi 0xA5) ∧
    decode (.poke 0x0006A6#24) = .ok (.gWdata 0xA6) := by
  decide

/-- R103, j in 0..3. -/
theorem test_decode_eg_control :
    decode (.poke 0x004080#24) = .ok (.egCtrl 0x80) ∧
    decode (.poke 0x004181#24) = .ok (.egMul 0x81) ∧
    decode (.poke 0x004282#24) = .ok (.egHold 0x82) ∧
    decode (.poke 0x004383#24) = .ok (.egStride 0x83) := by
  decide

/-- R103, EG.TBL n at j = 4 + n. -/
theorem test_decode_eg_table_0 :
    decode (.poke 0x004411#24) = .ok (.egTbl0 0x11) ∧
    decode (.poke 0x004512#24) = .ok (.egTbl1 0x12) ∧
    decode (.poke 0x004613#24) = .ok (.egTbl2 0x13) ∧
    decode (.poke 0x004714#24) = .ok (.egTbl3 0x14) ∧
    decode (.poke 0x004815#24) = .ok (.egTbl4 0x15) ∧
    decode (.poke 0x004916#24) = .ok (.egTbl5 0x16) ∧
    decode (.poke 0x004A17#24) = .ok (.egTbl6 0x17) ∧
    decode (.poke 0x004B18#24) = .ok (.egTbl7 0x18) ∧
    decode (.poke 0x004C19#24) = .ok (.egTbl8 0x19) ∧
    decode (.poke 0x004D1A#24) = .ok (.egTbl9 0x1A) := by
  decide

/-- R103, EG.TBL n at j = 4 + n. -/
theorem test_decode_eg_table_10 :
    decode (.poke 0x004E1B#24) = .ok (.egTbl10 0x1B) ∧
    decode (.poke 0x004F1C#24) = .ok (.egTbl11 0x1C) ∧
    decode (.poke 0x00501D#24) = .ok (.egTbl12 0x1D) ∧
    decode (.poke 0x00511E#24) = .ok (.egTbl13 0x1E) ∧
    decode (.poke 0x00521F#24) = .ok (.egTbl14 0x1F) ∧
    decode (.poke 0x005320#24) = .ok (.egTbl15 0x20) ∧
    decode (.poke 0x005421#24) = .ok (.egTbl16 0x21) ∧
    decode (.poke 0x005522#24) = .ok (.egTbl17 0x22) ∧
    decode (.poke 0x005623#24) = .ok (.egTbl18 0x23) ∧
    decode (.poke 0x005724#24) = .ok (.egTbl19 0x24) := by
  decide

/-- R103, EG.TBL n at j = 4 + n. -/
theorem test_decode_eg_table_20 :
    decode (.poke 0x005825#24) = .ok (.egTbl20 0x25) ∧
    decode (.poke 0x005926#24) = .ok (.egTbl21 0x26) ∧
    decode (.poke 0x005A27#24) = .ok (.egTbl22 0x27) ∧
    decode (.poke 0x005B28#24) = .ok (.egTbl23 0x28) ∧
    decode (.poke 0x005C29#24) = .ok (.egTbl24 0x29) ∧
    decode (.poke 0x005D2A#24) = .ok (.egTbl25 0x2A) ∧
    decode (.poke 0x005E2B#24) = .ok (.egTbl26 0x2B) ∧
    decode (.poke 0x005F2C#24) = .ok (.egTbl27 0x2C) ∧
    decode (.poke 0x00602D#24) = .ok (.egTbl28 0x2D) ∧
    decode (.poke 0x00612E#24) = .ok (.egTbl29 0x2E) := by
  decide

/-- R103, EG.TBL n at j = 4 + n. -/
theorem test_decode_eg_table_30 :
    decode (.poke 0x00622F#24) = .ok (.egTbl30 0x2F) ∧
    decode (.poke 0x006330#24) = .ok (.egTbl31 0x30) ∧
    decode (.poke 0x006431#24) = .ok (.egTbl32 0x31) ∧
    decode (.poke 0x006532#24) = .ok (.egTbl33 0x32) ∧
    decode (.poke 0x006633#24) = .ok (.egTbl34 0x33) ∧
    decode (.poke 0x006734#24) = .ok (.egTbl35 0x34) ∧
    decode (.poke 0x006835#24) = .ok (.egTbl36 0x35) ∧
    decode (.poke 0x006936#24) = .ok (.egTbl37 0x36) ∧
    decode (.poke 0x006A37#24) = .ok (.egTbl38 0x37) ∧
    decode (.poke 0x006B38#24) = .ok (.egTbl39 0x38) := by
  decide

/-- R104, j in 0..9. -/
theorem test_decode_channel_first :
    decode (.poke 0x0080C0#24) = .ok (.chCtrl 0xC0) ∧
    decode (.poke 0x0081C1#24) = .ok (.chVolL 0xC1) ∧
    decode (.poke 0x0082C2#24) = .ok (.chVolR 0xC2) ∧
    decode (.poke 0x0083C3#24) = .ok (.chAccmax 0xC3) ∧
    decode (.poke 0x0084C4#24) = .ok (.chAeg 0xC4) ∧
    decode (.poke 0x0085C5#24) = .ok (.chFeg0 0xC5) ∧
    decode (.poke 0x0086C6#24) = .ok (.chFeg1 0xC6) ∧
    decode (.poke 0x0087C7#24) = .ok (.chFeg2 0xC7) ∧
    decode (.poke 0x0088C8#24) = .ok (.chFeg3 0xC8) ∧
    decode (.poke 0x0089C9#24) = .ok (.chFeg4 0xC9) := by
  decide

/-- R104, j in 10..19, the pad at 15. -/
theorem test_decode_channel_rest :
    decode (.poke 0x008ACA#24) = .ok (.chFeg5 0xCA) ∧
    decode (.poke 0x008BCB#24) = .ok (.chFeg6 0xCB) ∧
    decode (.poke 0x008CCC#24) = .ok (.chFeg7 0xCC) ∧
    decode (.poke 0x008DCD#24) = .ok (.chFeg8 0xCD) ∧
    decode (.poke 0x008ECE#24) = .ok (.chFeg9 0xCE) ∧
    decode (.poke 0x008FCF#24) = .ok (.ignored008F 0xCF) ∧
    decode (.poke 0x0090D0#24) = .ok (.chLoopsLo 0xD0) ∧
    decode (.poke 0x0091D1#24) = .ok (.chLoopsHi 0xD1) ∧
    decode (.poke 0x0092D2#24) = .ok (.chLoopeLo 0xD2) ∧
    decode (.poke 0x0093D3#24) = .ok (.chLoopeHi 0xD3) := by
  decide

/-- R111: both ends of each ignored block. -/
theorem test_decode_ignored_small :
    decode (.poke 0x0007FF#24) = .ok (.ignored0007 0xFF) ∧
    decode (.poke 0x000801#24) = .ok (.ignored0008 0x0008 1) ∧
    decode (.poke 0x000FFE#24) = .ok (.ignored0008 0x000F 0xFE) ∧
    decode (.poke 0x001001#24) = .ok (.ignored0010 0x0010 1) ∧
    decode (.poke 0x001FFE#24) = .ok (.ignored0010 0x001F 0xFE) ∧
    decode (.poke 0x002001#24) = .ok (.ignored0020 0x0020 1) ∧
    decode (.poke 0x003FFE#24) = .ok (.ignored0020 0x003F 0xFE) ∧
    decode (.poke 0x006C01#24) = .ok (.ignored006C 0x006C 1) ∧
    decode (.poke 0x006FFE#24) = .ok (.ignored006C 0x006F 0xFE) ∧
    decode (.poke 0x007001#24) = .ok (.ignored0070 0x0070 1) ∧
    decode (.poke 0x007FFE#24) = .ok (.ignored0070 0x007F 0xFE) ∧
    decode (.poke 0x009401#24) = .ok (.ignored0094 0x0094 1) ∧
    decode (.poke 0x0097FE#24) = .ok (.ignored0094 0x0097 0xFE) ∧
    decode (.poke 0x009801#24) = .ok (.ignored0098 0x0098 1) ∧
    decode (.poke 0x009FFE#24) = .ok (.ignored0098 0x009F 0xFE) ∧
    decode (.poke 0x00A001#24) = .ok (.ignored00A0 0x00A0 1) ∧
    decode (.poke 0x00BFFE#24) = .ok (.ignored00A0 0x00BF 0xFE) ∧
    decode (.poke 0x00C001#24) = .ok (.ignored00C0 0x00C0 1) ∧
    decode (.poke 0x00FFFE#24) = .ok (.ignored00C0 0x00FF 0xFE) := by
  decide

/-- R111: both ends of each larger ignored block. -/
theorem test_decode_ignored_large :
    decode (.poke 0x010001#24) = .ok (.ignored0100 0x0100 1) ∧
    decode (.poke 0x01FFFE#24) = .ok (.ignored0100 0x01FF 0xFE) ∧
    decode (.poke 0x020001#24) = .ok (.ignored0200 0x0200 1) ∧
    decode (.poke 0x03FFFE#24) = .ok (.ignored0200 0x03FF 0xFE) ∧
    decode (.poke 0x040001#24) = .ok (.ignored0400 0x0400 1) ∧
    decode (.poke 0x07FFFE#24) = .ok (.ignored0400 0x07FF 0xFE) ∧
    decode (.poke 0x080001#24) = .ok (.ignored0800 0x0800 1) ∧
    decode (.poke 0x0FFFFE#24) = .ok (.ignored0800 0x0FFF 0xFE) ∧
    decode (.poke 0x100001#24) = .ok (.ignored1000 0x1000 1) ∧
    decode (.poke 0x1FFFFE#24) = .ok (.ignored1000 0x1FFF 0xFE) ∧
    decode (.poke 0x200001#24) = .ok (.ignored2000 0x2000 1) ∧
    decode (.poke 0x3FFFFE#24) = .ok (.ignored2000 0x3FFF 0xFE) ∧
    decode (.poke 0x400001#24) = .ok (.ignored4000 0x4000 1) ∧
    decode (.poke 0x7FFFFE#24) = .ok (.ignored4000 0x7FFF 0xFE) ∧
    decode (.poke 0x800001#24) = .ok (.ignored8000 0x8000 1) ∧
    decode (.poke 0xFFFFFE#24) = .ok (.ignored8000 0xFFFF 0xFE) := by
  decide

/-- The host operations without an address, and that a micro-operation has no encoding (R115). -/
theorem test_decode_host_operations :
    decode .init = .ok .init ∧ decode .destroy = .ok .destroy ∧ decode (.render 10) = .ok (.render 10) ∧
    encode .frame = none ∧ encode (.chRender 0 .left) = none ∧ encode (.egRender 0 true) = none ∧
    encode (.stageProcess 0 0 1 .left) = none ∧ encode (.lut 0) = none := by
  decide

/-- A table row's word has the register in its low 16 bits; any other length is no transaction (R100, R112). -/
theorem test_decodeTableWord :
    decodeTableWord 16 0x0041 = some (.egMul 0) ∧ decodeTableWord 16 0x0093 = some (.chLoopeHi 0) ∧
    decodeTableWord 24 0xC80093 = some (.chLoopeHi 0xC8) ∧ decodeTableWord 8 0x41 = none ∧
    decodeBits 16 0x0041 = .error .notOneTransaction ∧ decodeBits 24 0x0041C8 = .ok (.egMul 0xC8) := by
  decide

/-- A word issued after reset is what the next step runs. -/
theorem test_step_runs_fetch_word :
    (step (State.reset.withFetchWord 24 0xFF0000) = exec (.gCtrl 0xFF) State.reset) ∧
    (step (State.reset.withFetchWord 16 0x1234) = .next State.reset) := ⟨rfl, rfl⟩

/-! ### Arithmetic (95_test_vectors.md section 2) -/

theorem test_s8_sat : s8 0x00 = 0 ∧ s8 0x7F = 127 ∧ s8 0x80 = -128 ∧ s8 0xFF = -1 ∧ s8 0x9C = -100 ∧
    sat 32767 = 32767 ∧ sat 32768 = 32767 ∧ sat (-32767) = -32767 ∧ sat (-32768) = -32767 ∧ sat 4194304 = 32767 ∧
    sat 0 = 0 := by
  decide

theorem test_tdiv_wrap16 : tdiv 7 2 = 3 ∧ tdiv (-7) 2 = -3 ∧ tdiv (-1) 32768 = 0 ∧ tdiv (-32768) 32768 = -1 ∧
    tdiv (-32769) 32768 = -1 ∧ tdiv 255 256 = 0 ∧ tdiv (-255) 256 = 0 ∧ tdiv (-256) 256 = -1 ∧
    (wrap16 32767).toInt = 32767 ∧ (wrap16 32768).toInt = -32768 ∧ (wrap16 (-32769)).toInt = 32767 ∧
    (wrap16 262136).toInt = -8 ∧ (wrap16 (-262136)).toInt = 8 ∧ (wrap16 65536).toInt = 0 := by
  decide

/-! ### POKEs (95_test_vectors.md section 3; examples of 40_poke_and_host_ops.md) -/

/-- K1, and R132's example. -/
theorem test_gCtrl_gChsel : (after (.gCtrl 0xFF) State.reset).chip.g.ctrl = 0xFF ∧
    (after (.gChsel 0x81) State.reset).chip.g.chsel = 0x81 := by
  decide

/-- The examples of R133 and R134. -/
theorem test_gEgsel_halves : (after (.gEgselLo 0x08) (selecting 0x0300 0)).chip.g.egsel = 0x0308 ∧
    (after (.gEgselHi 0x80) (selecting 0x0308 0)).chip.g.egsel = 0x8008 := by
  decide

/-- The examples of R135 and R136. -/
theorem test_gWptr_halves :
    (after (.gWptrLo 0x00) { State.reset with chip := State.reset.chip.setG { Global.reset with wptr := 0x1234 } }).chip.g.wptr
      = 0x1200 ∧
    (after (.gWptrHi 0x80) { State.reset with chip := State.reset.chip.setG { Global.reset with wptr := 0x1200 } }).chip.g.wptr
      = 0x8000 := by
  decide

/-- K2. -/
theorem test_gWdata_stores : (after (.gWdata 0xAB) State.reset).chip.mem = [(0, 0xAB)] ∧
    (after (.gWdata 0xAB) State.reset).chip.g.wdata = 0xAB ∧ (after (.gWdata 0xAB) State.reset).chip.g.wptr = 1 := by
  decide

/-- K14: the pointer wraps at 65536 and the cell at MEM_SIZE. -/
theorem test_gWdata_wraps :
    let s := { State.reset with chip := State.reset.chip.setG { Global.reset with wptr := 0xFFFF } }
    (after (.gWdata 1) s).chip.mem = [(32767, 1)] ∧ (after (.gWdata 1) s).chip.g.wptr = 0 := by
  decide +kernel

/-- K6 and K8: both flags assigned in the selected EGs only, bits 7:2 dropped. -/
theorem test_egCtrl : ((after (.egCtrl 0x03) (selecting 0x0005 0)).chip.eg 2).keyReset = true ∧
    ((after (.egCtrl 0x03) (selecting 0x0005 0)).chip.eg 1).keyOn = false ∧
    ((after (.egCtrl 0xFE) (selecting 1 0)).chip.eg 0).keyReset = false ∧
    ((after (.egCtrl 0xFE) (selecting 1 0)).chip.eg 0).keyOn = true := by
  decide +kernel

/-- K7; program P2's EG.HOLD and R142's example. -/
theorem test_egMul_egHold_egStride : s8 ((after (.egMul 0x80) (selecting 0x8000 0)).chip.eg 15).multiplier = -128 ∧
    ((after (.egMul 0x80) (selecting 0x8000 0)).chip.eg 14).multiplier = 0 ∧
    ((after (.egHold 0x02) (selecting 0x0008 0)).chip.eg 3).holdPoint = 2 ∧
    ((after (.egStride 0x00) (withEg 0 { Eg.reset with stride := 7 })).chip.eg 0).stride = 7 := by
  decide +kernel

/-- K9. -/
theorem test_egTbl : ((after (.egTbl0 0x11) (selecting 1 0)).chip.eg 0).table[0] = 0x11 ∧
    ((after (.egTbl39 0x22) (selecting 1 0)).chip.eg 0).table[39] = 0x22 ∧
    ((after (.egTbl17 0x33) (selecting 1 0)).chip.eg 0).table[17] = 0x33 ∧
    ((after (.egTbl17 0x33) (selecting 1 0)).chip.eg 0).table[18] = 0 := by
  decide +kernel

/-- K17: CH.CTRL with bit 0 clear withdraws the request. -/
theorem test_chCtrl : ((after (.chCtrl 0x01) (selecting 0 0x01)).chip.ch 0).keyReset = true ∧
    ((after (.chCtrl 0x00) (after (.chCtrl 0x01) (selecting 0 0x01))).chip.ch 0).keyReset = false := by
  decide +kernel

/-- K18. -/
theorem test_chVolumes_chAccmax : s8 ((after (.chVolL 0xFF) (selecting 0 1)).chip.ch 0).volL = -1 ∧
    s8 ((after (.chVolR 0x80) (selecting 0 1)).chip.ch 0).volR = -128 ∧
    ((after (.chAccmax 0xFF) (selecting 0 1)).chip.ch 0).accMax = 255 := by
  decide +kernel

/-- K10 and K11: an index keeps its low four bits. -/
theorem test_chAeg_chFeg : ((after (.chAeg 0x2F) (selecting 0 0x81)).chip.ch 7).aeg = 15 ∧
    ((after (.chAeg 0x2F) (selecting 0 0x81)).chip.ch 6).aeg = 0 ∧
    ((after (.chFeg0 0x13) (selecting 0 1)).chip.ch 0).feg[0] = 3 ∧
    ((after (.chFeg9 0x04) (selecting 0 1)).chip.ch 0).feg[9] = 4 := by
  decide +kernel

/-- The examples of R151 to R154 (K12, K13). -/
theorem test_chLoops : ((after (.chLoopsLo 0x64) (selecting 0 1)).chip.ch 0).loopStart = 100 ∧
    ((after (.chLoopsHi 0x01) (after (.chLoopsLo 0x64) (selecting 0 1))).chip.ch 0).loopStart = 356 ∧
    ((after (.chLoopeLo 0xC8) (after (.chLoopeHi 0x80) (selecting 0 1))).chip.ch 0).loopEnd = 0x80C8 := by
  decide +kernel

/-- K3, K4 and K19. -/
theorem test_ignored : exec (.ignored0007 0xAB) State.reset = .next State.reset ∧
    exec (.ignored8000 0xFFFF 1) State.reset = .next State.reset ∧
    exec (.ignored008F 0x55) (selecting 0 0xFF) = .next (selecting 0 0xFF) := ⟨rfl, rfl, rfl⟩

/-- K20, and DESTROY (R157). -/
theorem test_init_destroy : after .init (selecting 0xFFFF 0xFF) = State.reset ∧
    after .destroy (selecting 0xFFFF 0xFF) = selecting 0xFFFF 0xFF := ⟨rfl, rfl⟩

/-! ### EG.RENDER (95_test_vectors.md section 4) -/

/-- The EG of E2, E5 and E6: multiplier 1, table[n] = n + 1. -/
def rampEg (stride : Byte) (kr on : Bool) (hold : Byte) (entry : BitVec 6) (count : Byte) (q : Bool) : Eg :=
  { multiplier := 1, holdPoint := hold, stride := stride, table := Vector.ofFn fun n : Fin 40 => BitVec.ofNat 8 (n.val + 1),
    keyReset := kr, keyOn := on, currentEntry := entry, currentStride := count, stepQueued := q }

/-- E5, E6, E7, E8 (its last step), the terminal state and a held step: the cursor after one call. -/
theorem test_egRender_cursor :
    (rampEg 0 true false 255 17 0 true).advance = rampEg 0 false false 255 1 0 false ∧
    (rampEg 0 true false 255 17 0 false).advance = rampEg 0 false false 255 0 0 false ∧
    (rampEg 0 true true 0 40 0 true).advance = rampEg 0 false true 0 0 0 false ∧
    (rampEg 2 false false 255 0 4 true).advance = rampEg 2 false false 255 1 0 false ∧
    (rampEg 0 false false 255 40 0 true).advance = rampEg 0 false false 255 40 0 false ∧
    (rampEg 1 false true 3 3 1 true).advance = rampEg 1 false true 3 3 1 false := by
  decide +kernel

/-- E4: narrowing of the output, in both modes. -/
theorem test_egRender_output :
    let loud (m : Byte) : Eg := { Eg.reset with multiplier := m, table := Vector.replicate 40 255 }
    ((loud 127).output wideLut false).toInt = 32385 ∧ ((loud 0x80).output wideLut false).toInt = -32640 ∧
    ((loud 127).output wideLut true).toInt = 32767 ∧ ((loud 0x80).output wideLut true).toInt = -32767 ∧
    ((loud 0).output wideLut true).toInt = 0 := by
  decide +kernel

/-- LUT reads the table (R205). -/
theorem test_lut : lutGain identityLut 200 = 200 ∧ (after (.lut 3) State.reset).chip = State.reset.chip := ⟨rfl, rfl⟩

/-! ### STAGE.PROCESS (95_test_vectors.md section 5) -/

/-- B4 rows 3 and 4, B2 row 4: the taps, the negated line, the truncation. -/
theorem test_stage_taps :
    (stageOf 16384 16384 16384 32767 0 (lineOf 2000 (-1000) 0)).process (i16 3000) .left =
      (stageOf 16384 16384 16384 32767 0 (lineOf 3000 (-2000) 1000), i16 999) ∧
    (stageOf 16384 16384 16384 32767 0 (lineOf 3000 (-2000) 1000)).process (i16 0) .left =
      (stageOf 16384 16384 16384 32767 0 (lineOf 0 (-3000) 2000), i16 (-499)) ∧
    ((stageOf 32767 0 0 32767 0 (lineOf 1 1000 1000)).process (i16 (-1)) .left).2 = 0 := by
  decide +kernel

/-- B6 row 4 and B7: the clamp after every addition, and negative coefficients. -/
theorem test_stage_saturates :
    (stageOf 32767 (-32768) 32767 32767 32767 (lineOf 32767 (-32767) 32767)).process (i16 (-32767)) .left =
      (stageOf 32767 (-32768) 32767 32767 32767 (lineOf (-32767) (-32767) 32767), i16 32767) ∧
    ((stageOf (-32768) 0 0 (-32768) 0 DelayLine.reset).process (i16 32767) .left).2 = i16 32767 := by
  decide +kernel

/-! ### CH.RENDER (95_test_vectors.md section 6) -/

/-- H3 and H4: the loop check and the accumulator. -/
theorem test_chRender_pointer :
    let ch : Channel := { Channel.reset with loopStart := 100, loopEnd := 200, accMax := 3 }
    ({ ch with ptr := 201 } : Channel).checkLoop.ptr = 100 ∧ ({ ch with ptr := 200 } : Channel).checkLoop.ptr = 200 ∧
    ({ ch with ptr := 150, keyReset := true } : Channel).checkLoop.ptr = 100 ∧
    ({ ch with ptr := 201, loopEnd := 32968 } : Channel).checkLoop.ptr = 100 ∧
    (({ ch with ptr := 100 } : Channel).stepRate .right).ptr = 101 ∧ (({ ch with ptr := 100 } : Channel).stepRate .right).acc = 3 ∧
    (({ ch with ptr := 101, acc := 3 } : Channel).stepRate .right).acc = 2 ∧
    (({ ch with ptr := 32767 } : Channel).stepRate .right).ptr = 0 ∧
    ({ ch with ptr := 100 } : Channel).stepRate .left = { ch with ptr := 100 } := by
  decide +kernel

/-- H1 and H2: the scaled fetch and the channel's output. -/
theorem test_chRender_scaling :
    let fetch (b vol : Byte) : Int := (({ Channel.reset with volL := vol } : Channel).fetchScale [(0, b)] .left).toInt
    fetch 10 1 = 2560 ∧ fetch 0x80 1 = -32767 ∧ fetch 0x80 0xFF = 32767 ∧ fetch 127 0xFF = -32512 ∧ fetch 1 0x80 = -32767 ∧
    (channelOut (i16 2441) 200).toInt = 1800 ∧ (channelOut (i16 (-255)) 1000).toInt = 0 ∧
    (channelOut (i16 (-256)) (i16 (-3))).toInt = 3 ∧ (channelOut (i16 32767) 259).toInt = 32767 ∧
    (channelOut (i16 32767) 258).toInt = 32766 := by
  decide +kernel

/-! ### FRAME and RENDER (95_test_vectors.md section 7) -/

/-- V1. -/
theorem test_frame_of_reset :
    let p := frame identityLut Chip.reset
    p.2 = { l := 0, r := 0 } ∧ (p.1.eg 0).currentEntry = 1 ∧ (p.1.eg 0).stepQueued = false ∧ (p.1.eg 1) = Eg.reset ∧
    (p.1.ch 7).ptr = 1 ∧ (p.1.ch 7).acc = 0 := by
  decide +kernel

/-- V3: the masks. -/
theorem test_frame_mask : refMask Chip.reset = 0x0001 ∧
    refMask (Chip.reset.setCh 0 { Channel.reset with aeg := 3, feg := #v[1, 2, 0, 0, 0, 0, 0, 0, 0, 0] }) = 0x000F := by
  decide +kernel

/-- V2: the Left call of frame 2 resets the pointer. -/
theorem test_render_two_frames :
    let p := renderFrames identityLut 2 Chip.reset
    p.2 = [{ l := 0, r := 0 }, { l := 0, r := 0 }] ∧ (p.1.eg 0).currentEntry = 2 ∧ (p.1.ch 3).ptr = 1 := by
  decide +kernel

/-! ### Witnesses: each statement's hypotheses are met together by a concrete state and operands -/

/-- StepRunsOldestOperation. -/
theorem test_witness_StepRunsOldestOperation :
    let s := { State.reset with queue := [.poke 0x0000FF#24, .init] }
    s.queue = .poke 0x0000FF#24 :: [.init] ∧ decode (.poke 0x0000FF#24) = .ok (.gCtrl 0xFF) ∧ State.reset.queue = [] := by
  decide

/-- FetchWordRunsNext. -/
theorem test_witness_FetchWordRunsNext : decodeTableWord 16 0x0041 = some (.egMul 0) := by decide

/-- DecodeInvertsEncode. -/
theorem test_witness_DecodeInvertsEncode : Instr.wellFormed (.ignored0094 0x0097 5) = true ∧
    encode (.ignored0094 0x0097 5) = some (.poke 0x009705#24) := by
  decide

/-- OtherLengthsRejected: both clauses at their common bounds. -/
theorem test_witness_OtherLengthsRejected :
    (24 = 24 ∧ 0xFFFFFF < 2 ^ 24) ∧ ¬(24 = 24 ∧ 0x1000000 < 2 ^ 24) ∧ ¬(16 = 24 ∧ 0 < 2 ^ 24) := by
  decide

/-- Where the first clause of UnassignedPokeIgnored holds. -/
abbrev outside (a : Nat) : Prop := (7 ≤ a ∧ a ≤ 0x3F) ∨ (0x6C ≤ a ∧ a ≤ 0x7F) ∨ a = 0x8F ∨ 0x94 ≤ a

/-- Where the second clause of UnassignedPokeIgnored holds. -/
abbrev inside (a : Nat) : Prop := a ≤ 6 ∨ (0x40 ≤ a ∧ a ≤ 0x6B) ∨ (0x80 ≤ a ∧ a ≤ 0x93 ∧ a ≠ 0x8F)

/-- UnassignedPokeIgnored: every boundary falls under exactly one clause, and a state has such a POKE in front. -/
theorem test_witness_UnassignedPokeIgnored :
    (∀ a ∈ [0x0007, 0x003F, 0x006C, 0x007F, 0x008F, 0x0094, 0xFFFF], outside a ∧ ¬inside a) ∧
    (∀ a ∈ [0x0000, 0x0006, 0x0040, 0x006B, 0x0080, 0x008E, 0x0090, 0x0093], inside a ∧ ¬outside a) ∧
    { State.reset with queue := [.poke (pokeWord 0x0007 1)] }.queue = .poke (pokeWord 0x0007 1) :: [] := by
  decide

/-- IgnoredWriteChangesNothing. -/
theorem test_witness_IgnoredWriteChangesNothing : Instr.ignoredPoke (.ignored008F 1) = some (0x008F, 1) := by decide

/-- ChannelSelectStored: both special values, and a channel-block POKE at each end of the block. -/
theorem test_witness_ChannelSelectStored : (∃ t, exec (.gChsel 0) (selecting 0 0xFF) = .next t) ∧
    (∃ t, exec (.gChsel 0xFF) (selecting 0 0) = .next t) ∧ 0x80 ≤ (0x0080 : Reg16).toNat ∧ (0x0093 : Reg16).toNat ≤ 0x93 ∧
    decodePoke 0x0080 1 = .ok (.chCtrl 1) ∧ decodePoke 0x0093 1 = .ok (.chLoopeHi 1) :=
  ⟨⟨_, rfl⟩, ⟨_, rfl⟩, by decide, by decide, by decide, by decide⟩

/-- SelectAndPointerHalves: the least pointer past MEM_SIZE. -/
theorem test_witness_SelectAndPointerHalves : 32768 ≤ (0x8000 : Reg16).toNat := by decide

/-- WdataStoresThenAdvances: a canonical memory with a cell, and a cell of each clause. -/
theorem test_witness_WdataStoresThenAdvances :
    let s := { State.reset with chip := (State.reset.chip.setMem [(32767, 5)]).setG { Global.reset with wptr := 0xFFFF } }
    Memory.wf s.chip.mem ∧ 32767 % 32768 = s.chip.g.wptr.toNat % 32768 ∧ 0 % 32768 ≠ s.chip.g.wptr.toNat % 32768 := by
  decide

/-- BroadcastIsLaneWise: both clauses at their boundaries. -/
theorem test_witness_BroadcastIsLaneWise :
    decodePoke 0x0040 1 = .ok (.egCtrl 1) ∧ decodePoke 0x006B 1 = .ok (.egTbl39 1) ∧
    decodePoke 0x0080 1 = .ok (.chCtrl 1) ∧ decodePoke 0x0093 1 = .ok (.chLoopeHi 1) ∧
    (0x40 ≤ (0x0040 : Reg16).toNat ∧ (0x006B : Reg16).toNat ≤ 0x6B) ∧
    0x80 ≤ (0x0080 : Reg16).toNat ∧ (0x0093 : Reg16).toNat ≤ 0x93 := by
  decide

/-- HalvesAssembleLittleEndian: a selected channel at each end. -/
theorem test_witness_HalvesAssembleLittleEndian :
    (selecting 0 0x81).chip.g.chsel.getLsbD (0 : Fin 8).val = true ∧
    (selecting 0 0x81).chip.g.chsel.getLsbD (7 : Fin 8).val = true := by
  decide

/-- ResetIsInitState. -/
theorem test_witness_ResetIsInitState : ∃ t, exec .init (selecting 1 1) = .next t := ⟨_, rfl⟩

/-- TerminalStateHolds: both clauses. -/
theorem test_witness_TerminalStateHolds :
    ((withEg 5 (rampEg 0 false true 3 40 0 true)).chip.eg 5).currentEntry.toNat = 40 ∧
    ((withEg 5 (rampEg 0 false true 3 40 0 true)).chip.eg 5).keyReset = false ∧
    ((withEg 5 (rampEg 0 true true 3 40 0 true)).chip.eg 5).currentEntry.toNat = 40 ∧
    ((withEg 5 (rampEg 0 true true 3 40 0 true)).chip.eg 5).keyReset = true := by
  decide +kernel

/-- The line at both ends of the range of R29, in channel 2's stage 1. -/
def stageState : State :=
  withCh 2 { Channel.reset with st := #v[Stage.reset, stageOf 32767 0 0 32767 0 (lineOf 32767 (-32767) 0)] }

/-- StageComputesOutput, at both ends of the input range. -/
theorem test_witness_StageComputesOutput : (0x7FFF : Sample) ≠ 0x8000 ∧ (0x8001 : Sample) ≠ 0x8000 ∧
    (((stageState.chip.ch 2).stage 1).delay .left).InRange := by
  decide +kernel

/-- StageSidesNeverMix: two states that differ in G.CTRL, both run; another side, stage and channel exist. -/
theorem test_witness_StageSidesNeverMix : (0x7FFF : Sample) ≠ 0x8000 ∧
    ((stageState.chip.ch 2).stage 1).coeff = (((stageState.withCtrl 1).chip.ch 2).stage 1).coeff ∧
    ((stageState.chip.ch 2).stage 1).delay .left = (((stageState.withCtrl 1).chip.ch 2).stage 1).delay .left ∧
    (∃ t, exec (.stageProcess 2 1 0x7FFF .left) stageState = .next t) ∧
    (∃ t, exec (.stageProcess 2 1 0x7FFF .left) (stageState.withCtrl 1) = .next t) ∧
    Side.right ≠ Side.left ∧ (0 : Fin 2) ≠ 1 ∧ (0 : Fin 8) ≠ 2 :=
  ⟨by decide, rfl, rfl, ⟨_, exec_stageProcess 2 1 0x7FFF .left stageState (by decide)⟩,
    ⟨_, exec_stageProcess 2 1 0x7FFF .left (stageState.withCtrl 1) (by decide)⟩, by decide, by decide, by decide⟩

/-- StageKeepsRange. -/
theorem test_witness_StageKeepsRange : (0x8001 : Sample) ≠ 0x8000 ∧
    (((stageState.chip.ch 2).stage 1).delay .left).InRange ∧
    ∃ t, exec (.stageProcess 2 1 0x8001 .left) stageState = .next t :=
  ⟨by decide, by decide +kernel, ⟨_, exec_stageProcess 2 1 0x8001 .left stageState (by decide)⟩⟩

/-- ArithmeticPrimitives: the boundaries of the clamp and a positive divisor. -/
theorem test_witness_ArithmeticPrimitives : (-32767 : Int) ≤ 32767 ∧ (-32767 : Int) ≤ -32767 ∧ (0 : Int) < 32768 := by decide

/-- ChannelPointerAndAccumulator: an accumulator at 0 and one above it. -/
theorem test_witness_ChannelPointerAndAccumulator :
    ((withCh 1 { Channel.reset with ptr := 201, loopEnd := 200 }).chip.ch 1).acc = 0 ∧
    ((withCh 1 { Channel.reset with acc := 255, ptr := 200, loopEnd := 200 }).chip.ch 1).acc ≠ 0 := by
  decide +kernel

/-- ChannelRenderLeavesTheRest: an EG that channel 0 does not reference, another side and another channel. -/
theorem test_witness_ChannelRenderLeavesTheRest :
    (State.reset.chip.ch 0).aeg.toNat ≠ (1 : Fin 16).val ∧
    (∀ j : Fin 10, (State.reset.chip.ch 0).feg[j].toNat ≠ (1 : Fin 16).val) ∧ Side.right ≠ Side.left ∧ (7 : Fin 8) ≠ 0 := by
  decide +kernel

/-- RenderIsFramesInOrder: the smallest and the largest count. -/
theorem test_witness_RenderIsFramesInOrder : (0 : BitVec 32).toNat + 1 < 2 ^ 32 ∧ (0xFFFFFFFE : BitVec 32).toNat + 1 < 2 ^ 32 := by
  decide

/-- BufferInterleavesPairs: a run of two frames has a pair at index 0 and at index 1. -/
theorem test_witness_BufferInterleavesPairs :
    ∃ f g : StereoFrame, (renderFrames identityLut 2 Chip.reset).2[0]? = some f ∧
      (renderFrames identityLut 2 Chip.reset).2[1]? = some g :=
  ⟨{ l := 0, r := 0 }, { l := 0, r := 0 }, by decide +kernel, by decide +kernel⟩

/-- RenderSplits, at the largest sum. -/
theorem test_witness_RenderSplits : (0xFFFFFFFE : BitVec 32).toNat + (1 : BitVec 32).toNat < 2 ^ 32 := by decide

/-- FrameStepsEachReferencedEgOnce and UnreferencedEgUntouched: EG 0 is referenced after reset, EG 15 is not. -/
theorem test_witness_FrameStepsEachReferencedEgOnce :
    State.reset.chip.References 0 ∧ ¬State.reset.chip.References 15 := by
  decide +kernel

/-- UnreferencedEgUntouched, with a key-reset pending. -/
theorem test_witness_UnreferencedEgUntouched :
    ¬(withEg 15 { Eg.reset with keyReset := true }).chip.References 15 := by
  decide +kernel

/-- EgDwellsStridePlusOneFrames: the first and the last frame, at the largest stride. -/
theorem test_witness_EgDwellsStridePlusOneFrames :
    let s := withEg 0 (rampEg 255 true false 0 7 9 false)
    s.chip.References 0 ∧ (s.chip.eg 0).keyReset = true ∧ (s.chip.eg 0).keyOn = false ∧
    (1 ≤ 1 ∧ 1 ≤ 40 * ((s.chip.eg 0).stride.toNat + 1)) ∧ 1 ≤ 10240 ∧ 10240 ≤ 40 * ((s.chip.eg 0).stride.toNat + 1) := by
  decide +kernel

/-- HoldPointNeverPassed: a cursor at its hold point. -/
theorem test_witness_HoldPointNeverPassed :
    ((withEg 0 (rampEg 0 false true 3 3 0 false)).chip.eg 0).keyOn = true ∧
    ((withEg 0 (rampEg 0 false true 3 3 0 false)).chip.eg 0).currentEntry.toNat ≤
      ((withEg 0 (rampEg 0 false true 3 3 0 false)).chip.eg 0).holdPoint.toNat := by
  decide +kernel

/-- HoldLockKeptByEveryInstruction: a cursor at its hold point, and a FRAME that runs it. -/
theorem test_witness_HoldLockKeptByEveryInstruction :
    ((withEg 0 (rampEg 0 false true 3 3 0 false)).chip.eg 0).HoldLocked ∧
    (∃ t, exec .frame (withEg 0 (rampEg 0 false true 3 3 0 false)) = .next t) ∧
    (∀ v, Instr.frame ≠ .egCtrl v) ∧ (∀ v, Instr.frame ≠ .egHold v) ∧ Instr.frame ≠ .init :=
  ⟨by decide +kernel, ⟨_, exec_frame _⟩, fun _ h => Instr.noConfusion h, fun _ h => Instr.noConfusion h, by decide⟩

/-- PointerAdvancesOncePerPeriod: the first and the last frame of a period, next to the loop's end. -/
theorem test_witness_PointerAdvancesOncePerPeriod :
    let s := withCh 0 { Channel.reset with ptr := 32766, loopEnd := 0xFFFF, accMax := 255 }
    (s.chip.ch 0).acc = 0 ∧ (s.chip.ch 0).keyReset = false ∧
    (s.chip.ch 0).ptr.toNat + 1 ≤ (s.chip.ch 0).loopEnd.toNat % 32768 ∧
    (1 ≤ 1 ∧ 1 ≤ (s.chip.ch 0).accMax.toNat + 1) ∧ 1 ≤ 256 ∧ 256 ≤ (s.chip.ch 0).accMax.toNat + 1 := by
  decide +kernel

/-- EveryOperationCompletes and ControlByteInfluencesNothing. -/
theorem test_witness_EveryOperationCompletes : Instr.wellFormed (.stageProcess 7 1 0x8001 .right) = true ∧
    Instr.wellFormed (.ignored8000 0xFFFF 0) = true ∧ Instr.wellFormed (.render 5) = true := by
  decide

/-- ControlByteInfluencesNothing. -/
theorem test_witness_ControlByteInfluencesNothing : Instr.wellFormed .frame = true ∧
    (selecting 1 1).withCtrl 0xFF ≠ selecting 1 1 := by
  decide +kernel

/-- PokeLeavesRuntimeState. -/
theorem test_witness_PokeLeavesRuntimeState :
    { State.reset with queue := [.poke 0x004003#24, .render 1] }.queue = .poke 0x004003#24 :: [.render 1] := by
  decide

/-- OnlyWdataAndInitWriteMemory. -/
theorem test_witness_OnlyWdataAndInitWriteMemory :
    (∃ t, exec .frame State.reset = .next t) ∧ (∀ v, Instr.frame ≠ .gWdata v) ∧ Instr.frame ≠ .init :=
  ⟨⟨_, exec_frame State.reset⟩, fun _ h => Instr.noConfusion h, by decide⟩

/-- ExecKeepsInvariant and StepKeepsInvariant: a state with a listed cell meets the invariant, and it goes on. -/
theorem test_witness_ExecKeepsInvariant :
    (after (.gWdata 5) State.reset).Inv ∧ ∃ t, exec .frame (after (.gWdata 5) State.reset) = .next t :=
  ⟨by decide +kernel, ⟨_, exec_frame _⟩⟩

/-- StepKeepsInvariant. -/
theorem test_witness_StepKeepsInvariant :
    { State.reset with queue := [.poke 0x0006AB#24] }.Inv ∧
    ∃ t, step { State.reset with queue := [.poke 0x0006AB#24] } = .next t :=
  ⟨by decide +kernel, ⟨_, rfl⟩⟩

end Sys2Proof.Tests
end

section
/-! What INIT leaves (10_state.md R39): the fields of the reset chip, read through the accessors. -/

namespace Sys2Proof.Machine

/-- INIT completes in every state. -/
theorem exec_init (s : State) : exec .init s = .next (s.setChip Chip.reset) := rfl

/-- A memory with no cell listed reads 0 at every address (R22). -/
@[simp] theorem memRead_nil (a : Nat) : memRead [] a = 0 := rfl

@[simp] theorem Chip.reset_g : Chip.reset.g = Global.reset := rfl
@[simp] theorem Chip.reset_mem : Chip.reset.mem = [] := rfl

@[simp] theorem Chip.reset_eg (e : Fin 16) : Chip.reset.eg e = Eg.reset := by
  simp only [Chip.eg, Chip.reset, Fin.getElem_fin, Vector.getElem_replicate]

@[simp] theorem Chip.reset_ch (c : Fin 8) : Chip.reset.ch c = Channel.reset := by
  simp only [Chip.ch, Chip.reset, Fin.getElem_fin, Vector.getElem_replicate]

/-- Settles O21: INIT completes with the reset chip, whose every unit is the reset unit. -/
theorem initZeroesEveryField : Obligations.InitZeroesEveryField := fun s =>
  ⟨s.setChip Chip.reset, exec_init s, Chip.reset_g, memRead_nil, Chip.reset_eg, Chip.reset_ch,
    s.setChip_queue _, s.setChip_out _, s.setChip_ret _⟩

end Sys2Proof.Machine
end

section
/-! POKEs (40_poke_and_host_ops.md R132, R144, R151 to R155, R160): every address of a broadcast block is one broadcast, and a
channel broadcast that leaves each selected channel as it is leaves the state as it is. -/

namespace Sys2Proof.Machine

/-- A channel broadcast whose write leaves every selected channel as it was changes nothing. -/
theorem chBroadcast_eq_self {f : Channel → Channel} {s : State}
    (h : ∀ c, s.chip.g.selectsCh c = true → f (s.chip.ch c) = s.chip.ch c) : chBroadcast f s = .next s := by
  have hchip : s.chip.mapChs s.chip.g.selectsCh f = s.chip := by
    refine Chip.ext_units rfl rfl (fun _ => rfl) fun c => ?_
    rw [Chip.mapChs_ch]
    split
    · exact h c ‹_›
    · rfl
  rw [chBroadcast, hchip, State.setChip_self]

/-- Every row of the EG block's table is a broadcast to the EGs (R103, R138). -/
theorem exec_eq_egBroadcast_of_decodeEg {j : Nat} {v : Byte} {i : Instr} (h : decodeEg j v = .ok i) :
    ∃ f, ∀ s, exec i s = egBroadcast f s := by
  unfold decodeEg at h
  split at h <;> cases h <;> exact ⟨_, fun _ => rfl⟩

/-- Every row of the channel block's table is a broadcast to the channels (R104, R144); the pad's is the one that writes each
channel back (R155). -/
theorem exec_eq_chBroadcast_of_decodeCh {j : Nat} {v : Byte} {i : Instr} (h : decodeCh j v = .ok i) :
    ∃ f, ∀ s, exec i s = chBroadcast f s := by
  unfold decodeCh at h
  split at h
  case h_16 =>
    cases h
    exact ⟨id, fun _ => (chBroadcast_eq_self fun _ _ => rfl).symm⟩
  all_goals cases h <;> exact ⟨_, fun _ => rfl⟩

/-- A POKE to an address of the EG block runs a broadcast to the EGs (R101, R130). -/
theorem exec_eq_egBroadcast_of_decodePoke {a : Reg16} {v : Byte} {i : Instr} (h : decodePoke a v = .ok i)
    (hlo : 0x40 ≤ a.toNat) (hhi : a.toNat ≤ 0x6B) : ∃ f, ∀ s, exec i s = egBroadcast f s := by
  rw [decodePoke_eg a (a.toNat - 64) v (by omega) (by omega)] at h
  exact exec_eq_egBroadcast_of_decodeEg h

/-- A POKE to an address of the channel block runs a broadcast to the channels (R101, R130). -/
theorem exec_eq_chBroadcast_of_decodePoke {a : Reg16} {v : Byte} {i : Instr} (h : decodePoke a v = .ok i)
    (hlo : 0x80 ≤ a.toNat) (hhi : a.toNat ≤ 0x93) : ∃ f, ∀ s, exec i s = chBroadcast f s := by
  rw [decodePoke_ch a (a.toNat - 128) v (by omega) (by omega)] at h
  exact exec_eq_chBroadcast_of_decodeCh h

/-- G.CHSEL is the write of one field of the global block (R132). -/
theorem exec_gChsel (v : Byte) (s : State) :
    exec (.gChsel v) s = .next { s with chip := { s.chip with g := { s.chip.g with chsel := v } } } :=
  globalWrite_next (fun g => { g with chsel := v }) s

/-- After G.CHSEL the channel mask is the byte written (R132). -/
theorem chsel_of_exec_gChsel {v : Byte} {s t : State} (h : exec (.gChsel v) s = .next t) : t.chip.g.chsel = v := by
  rw [next_inj ((exec_gChsel v s).symm.trans h)]

/-- Settles O19: a POKE into either block is one broadcast, the same in every state. -/
theorem broadcastIsLaneWise : Obligations.BroadcastIsLaneWise := fun _ _ _ h =>
  ⟨fun ⟨hlo, hhi⟩ => (exec_eq_egBroadcast_of_decodePoke h hlo hhi).imp fun _ => writesSelectedEgs_of,
    fun ⟨hlo, hhi⟩ => (exec_eq_chBroadcast_of_decodePoke h hlo hhi).imp fun _ => writesSelectedChannels_of⟩

/-- Settles O9: with mask 0 a channel broadcast has no channel to write. -/
theorem channelSelectStored : Obligations.ChannelSelectStored := by
  intro v
  refine ⟨(decodePoke_global _ v (by decide)).trans rfl, exec_gChsel v, ?_, ?_⟩
  · intro hv s t a w i hst hlo hhi hi
    obtain ⟨f, hf⟩ := exec_eq_chBroadcast_of_decodePoke hi hlo hhi
    have hnone : ∀ c, t.chip.g.selectsCh c = false := fun c => by
      simp [Global.selectsCh, chsel_of_exec_gChsel hst, hv]
    rw [hf, chBroadcast_eq_self fun c hc => by simp [hnone c] at hc]
  · intro hv s t c hst
    rw [chsel_of_exec_gChsel hst, hv]
    revert c
    decide

/-- An instruction of the ignored blocks has the ignored write as its meaning (R111, R155). -/
theorem exec_of_ignoredPoke {i : Instr} {p : Reg16 × Byte} (h : i.ignoredPoke = some p) (s : State) :
    exec i s = ignoredWrite s := by
  cases i with
  | ignored0007 | ignored0008 | ignored0010 | ignored0020 | ignored006C | ignored0070 | ignored008F | ignored0094
  | ignored0098 | ignored00A0 | ignored00C0 | ignored0100 | ignored0200 | ignored0400 | ignored0800 | ignored1000
  | ignored2000 | ignored4000 | ignored8000 => rfl
  | _ => cases h

/-- Settles O8: the meaning of each ignored block is the ignored write, which answers the state it was given. -/
theorem ignoredWriteChangesNothing : Obligations.IgnoredWriteChangesNothing := fun _ _ h s => exec_of_ignoredPoke h s

/-- Settles O18: each address is a row of the channel block's table, and its meaning is the broadcast of one half write. -/
theorem channelLoopHalvesStored : Obligations.ChannelLoopHalvesStored := fun v =>
  ⟨(decodePoke_ch _ 16 v (by decide) (by decide)).trans rfl, (decodePoke_ch _ 17 v (by decide) (by decide)).trans rfl,
    (decodePoke_ch _ 18 v (by decide) (by decide)).trans rfl, (decodePoke_ch _ 19 v (by decide) (by decide)).trans rfl,
    writesSelectedChannels_of (f := Channel.writeLoopStartLo v) fun _ => rfl,
    writesSelectedChannels_of (f := Channel.writeLoopStartHi v) fun _ => rfl,
    writesSelectedChannels_of (f := Channel.writeLoopEndLo v) fun _ => rfl,
    writesSelectedChannels_of (f := Channel.writeLoopEndHi v) fun _ => rfl⟩

end Sys2Proof.Machine
end

section
/-! EG.RENDER (41_envelope_generator.md R200 to R212): what a call returns, and what it does to a unit at the last cursor
position and to a unit with a pending key-reset. -/

namespace Sys2Proof.Machine

/-- EG.RENDER completes, advances its unit, and returns the output of the advanced unit (R200). -/
theorem exec_egRender_unit (e : Fin 16) (x : Bool) (s : State) : ∃ t, exec (.egRender e x) s = .next t ∧
    t.chip.eg e = (s.chip.eg e).advance ∧ t.ret = .sample ((s.chip.eg e).advance.output Config.expLut x) :=
  ⟨_, exec_egRender e x s, by simp, rfl⟩

/-- The output is the product of the multiplier and the level, looked up or raw, with the clamp of R8 (R204). -/
theorem Eg.output_eq_clamped (lut : Byte → Int) (x : Bool) (g : Eg) :
    g.output lut x = clamped (g.multiplier.toInt * if x = true then lut g.level else (g.level.toNat : Int)) := by
  rw [Eg.output, narrow_eq_clamped, s8_eq_toInt]
  rfl

/-- From cursor 39 on the level read is the last entry of the table (R203). -/
theorem Eg.level_eq_last {g : Eg} (h : 39 ≤ g.currentEntry.toNat) : g.level = g.table[39] := by
  simp only [Eg.level, Nat.min_eq_right h]

/-- Without a key-reset step 1 does nothing (R201). -/
theorem Eg.resetCursor_eq_self {g : Eg} (hk : g.keyReset = false) : g.resetCursor = g := by
  rcases g.resetCursor_cases with ⟨hk', -⟩ | ⟨-, h⟩
  · exact absurd (hk.symm.trans hk') Bool.false_ne_true
  · exact h

/-- A key-reset puts the entry at 0 (R201). -/
theorem Eg.resetCursor_entry_of_keyReset {g : Eg} (hk : g.keyReset = true) : g.resetCursor.currentEntry = 0 := by
  rcases g.resetCursor_cases with ⟨-, h⟩ | ⟨hk', -⟩
  · rw [h]
  · exact absurd (hk'.symm.trans hk) Bool.false_ne_true

/-- In the terminal state step 2 clears `step_queued` and does nothing else (R210). -/
theorem Eg.consumeStep_of_terminal {g : Eg} (h : 40 ≤ g.currentEntry.toNat) : g.consumeStep = g.clearQueued := by
  rcases g.consumeStep_cases with ⟨-, hlt, -⟩ | ⟨-, h'⟩
  · omega
  · exact h'

/-- In the terminal state a call without a key-reset clears `step_queued` and does nothing else (R210). -/
theorem Eg.advance_of_terminal {g : Eg} (hk : g.keyReset = false) (h : 40 ≤ g.currentEntry.toNat) :
    g.advance = g.clearQueued := by
  rw [Eg.advance, Eg.resetCursor_eq_self hk, Eg.consumeStep_of_terminal h]

/-- A move takes the entry up by one at most (R202). -/
theorem Eg.moveCursor_entry_le (g : Eg) : g.moveCursor.currentEntry.toNat ≤ g.currentEntry.toNat + 1 := by
  rcases g.moveCursor_cases with ⟨-, h⟩ | ⟨-, -, h⟩ | ⟨-, -, -, h⟩ <;> rw [h]
  · exact Nat.le_succ _
  · exact (BitVec.toNat_add _ _).trans_le (Nat.mod_le _ _)
  · exact Nat.le_succ _

/-- Step 2 takes the entry up by one at most (R202). -/
theorem Eg.consumeStep_entry_le (g : Eg) : g.consumeStep.currentEntry.toNat ≤ g.currentEntry.toNat + 1 := by
  rcases g.consumeStep_cases with ⟨-, -, h⟩ | ⟨-, h⟩ <;> rw [h, Eg.clearQueued_currentEntry]
  · exact g.moveCursor_entry_le
  · exact Nat.le_succ _

/-- A call that takes a key-reset ends at entry 0 or 1, wherever the cursor was (R201, R210). -/
theorem Eg.advance_entry_le_one_of_keyReset {g : Eg} (hk : g.keyReset = true) : g.advance.currentEntry.toNat ≤ 1 :=
  calc g.resetCursor.consumeStep.currentEntry.toNat
    _ ≤ g.resetCursor.currentEntry.toNat + 1 := g.resetCursor.consumeStep_entry_le
    _ = 1 := by rw [Eg.resetCursor_entry_of_keyReset hk]; rfl

/-- Settles O25: without a key-reset the advanced unit is the unit with `step_queued` cleared, so its level is `table[39]`;
with one, the cursor restarts at 0 and goes up by one at most. -/
theorem terminalStateHolds : Obligations.TerminalStateHolds := by
  intro e x s hterm
  obtain ⟨t, hexec, hunit, hret⟩ := exec_egRender_unit e x s
  refine ⟨fun hk => ⟨t, hexec, ?_, ?_⟩, fun hk => ⟨t, hexec, ?_⟩⟩
  · exact hunit.trans (Eg.advance_of_terminal hk hterm.ge)
  · have hlevel : (s.chip.eg e).clearQueued.level = (s.chip.eg e).table[39] :=
      Eg.level_eq_last (Nat.le_of_succ_le hterm.ge)
    rw [hret, Eg.advance_of_terminal hk hterm.ge, Eg.output_eq_clamped, hlevel, Eg.clearQueued_multiplier]
  · rw [hunit]
    exact Eg.advance_entry_le_one_of_keyReset hk

end Sys2Proof.Machine
end

section
/-! STAGE.PROCESS (42_biquad_stage.md R230 to R234): a call reads and writes the delay line of its own side. -/

namespace Sys2Proof.Machine

/-- What a stage returns depends on its coefficients and the line of the call's side (R232 to R234). -/
theorem Stage.process_snd_congr {x y : Stage} {side : Side} (input : Sample) (hcoeff : x.coeff = y.coeff)
    (hline : x.delay side = y.delay side) : (x.process input side).2 = (y.process input side).2 := by
  simp only [Stage.process, Stage.outputOf, hcoeff, hline]

/-- The line a call leaves on its side depends on that line alone (R231, R234). -/
theorem Stage.process_delay_congr {x y : Stage} {side : Side} (input : Sample)
    (hline : x.delay side = y.delay side) :
    (x.process input side).1.delay side = (y.process input side).1.delay side := by
  rw [Stage.process_delay, Stage.process_delay, if_pos rfl, if_pos rfl, hline]

/-- Everything a call does to the stages of its channel (R230). -/
theorem stageProcess_stage (c k x side) (chip : Chip) (j : Fin 2) :
    ((stageProcess c k x side chip).1.ch c).stage j =
      if j = k then (((chip.ch c).stage k).process x side).1 else (chip.ch c).stage j := by
  rw [stageProcess_ch, if_pos rfl, Channel.setStage_stage]

/-- A call leaves every field of its channel but the stages as it was. -/
theorem stageProcess_ch_eq_with_st (c k x side) (chip : Chip) :
    (stageProcess c k x side chip).1.ch c = { chip.ch c with st := ((stageProcess c k x side chip).1.ch c).st } := by
  simp only [stageProcess_ch, if_true]
  rfl

/-- A completed call leaves its stage processed and returns what the stage returns (R230). -/
theorem stage_and_ret_of_exec_stageProcess {c k x side} {s t : State} (hx : x ≠ 0x8000)
    (h : exec (.stageProcess c k x side) s = .next t) :
    (t.chip.ch c).stage k = (((s.chip.ch c).stage k).process x side).1 ∧
      t.ret = .sample (((s.chip.ch c).stage k).process x side).2 := by
  rw [next_inj ((exec_stageProcess c k x side s hx).symm.trans h)]
  exact ⟨(stageProcess_stage c k x side s.chip k).trans (if_pos rfl), rfl⟩

/-- Settles O29: a call replaces one stage by the stage with one line pushed; the push reads that line, and the value returned
is a function of the coefficients and that line. -/
theorem stageSidesNeverMix : Obligations.StageSidesNeverMix := by
  intro c k x side hx
  constructor
  · intro s
    have hexec := exec_stageProcess c k x side s hx
    obtain ⟨hstage, -⟩ := stage_and_ret_of_exec_stageProcess hx hexec
    refine ⟨_, hexec, ?coeff, ?otherLine, ?otherStages, stageProcess_ch_eq_with_st c k x side s.chip, ?otherChannels,
      rfl, rfl, rfl, rfl, rfl⟩
    case coeff => rw [hstage, Stage.process_coeff]
    case otherLine => exact fun other hne => by rw [hstage, Stage.process_delay, if_neg hne]
    case otherStages => exact fun j hne => (stageProcess_stage c k x side s.chip j).trans (if_neg hne)
    case otherChannels => exact fun j hne => (stageProcess_ch c k x side s.chip j).trans (if_neg hne)
  · intro s s' t t' hcoeff hline hs hs'
    obtain ⟨hstage, hret⟩ := stage_and_ret_of_exec_stageProcess hx hs
    obtain ⟨hstage', hret'⟩ := stage_and_ret_of_exec_stageProcess hx hs'
    constructor
    · rw [hret, hret', Stage.process_snd_congr x hcoeff hline]
    · rw [hstage, hstage', Stage.process_delay_congr x hline]

end Sys2Proof.Machine
end

section
/-! CH.RENDER (43_channel.md R260 to R272): a request to restart the channel is consumed by the first call that finds it. -/

namespace Sys2Proof.Machine

/-- A call leaves its channel without a pending key-reset, whether or not it found one (R267). -/
@[simp] theorem chRender_keyReset (lut : Byte → Int) (c : Fin 8) (side : Side) (chip : Chip) :
    ((chRender lut c side chip).1.ch c).keyReset = false := by
  rw [chRender_ch, if_pos rfl, Channel.rendered_keyReset]

/-- Settles O35: a call completes in every state, and step 7 clears the flag that steps 1 to 6 keep as the call found it. -/
theorem channelKeyResetIsOneShot : Obligations.ChannelKeyResetIsOneShot := fun c side s =>
  ⟨_, exec_chRender c side s, chRender_keyReset Config.expLut c side s.chip⟩

end Sys2Proof.Machine
end

section
/-! No exception and no illegal operation (60_exceptions.md R330, R332): the address decode answers every POKE with a well-formed
instruction that is that POKE, and every well-formed instruction completes. -/

namespace Sys2Proof.Machine

/-- The instruction is the POKE of the byte to the address: its operands are in range and it encodes to that POKE (R100). -/
structure IsPoke (a : Reg16) (v : Byte) (i : Instr) : Prop where
  wellFormed : i.wellFormed = true
  encode_eq : encode i = some (.poke (pokeWord a v))

/-- Every address of the global block has a row in its table (R102). -/
theorem decodeGlobal_isPoke {n : Nat} (v : Byte) (h : n ≤ 6) :
    ∃ i, decodeGlobal n v = .ok i ∧ IsPoke (BitVec.ofNat 16 n) v i := by
  interval_cases n <;> exact ⟨_, rfl, rfl, rfl⟩

/-- Every address of the EG block has a row in its table (R103). -/
theorem decodeEg_isPoke {n : Nat} (v : Byte) (hlo : 64 ≤ n) (hhi : n ≤ 107) :
    ∃ i, decodeEg (n - 64) v = .ok i ∧ IsPoke (BitVec.ofNat 16 n) v i := by
  interval_cases n <;> exact ⟨_, rfl, rfl, rfl⟩

/-- Every address of the channel block has a row in its table, the pad 0x008F among them (R104). -/
theorem decodeCh_isPoke {n : Nat} (v : Byte) (hlo : 128 ≤ n) (hhi : n ≤ 147) :
    ∃ i, decodeCh (n - 128) v = .ok i ∧ IsPoke (BitVec.ofNat 16 n) v i := by
  interval_cases n <;> exact ⟨_, rfl, rfl, rfl⟩

/-- An address outside the three tables lies in the ignored block it decodes to (R111). -/
theorem decodeUnassigned_isPoke (a : Reg16) (v : Byte) (h : (7 ≤ a.toNat ∧ a.toNat < 64) ∨
    (108 ≤ a.toNat ∧ a.toNat < 128) ∨ 148 ≤ a.toNat) : IsPoke a v (decodeUnassigned a v) := by
  unfold decodeUnassigned
  refine iteInduction (motive := IsPoke a v) (fun h7 => ?_) fun _ => ?_
  · obtain rfl : a = 0x0007 := BitVec.eq_of_toNat_eq (show a.toNat = 7 by omega)
    exact ⟨rfl, rfl⟩
  · -- Each test of the chain is the end of a block, and the failed tests before it give the start.
    repeat refine iteInduction (motive := IsPoke a v) (fun _ => ⟨inBlock_iff.mpr (by omega), rfl⟩) fun _ => ?_
    exact ⟨inBlock_iff.mpr (by omega), rfl⟩

/-- The four cases of the address decode cover every address, and each answers with the POKE it was given (R101, R332). -/
theorem decodePoke_isPoke (a : Reg16) (v : Byte) : ∃ i, decodePoke a v = .ok i ∧ IsPoke a v i := by
  have ha : BitVec.ofNat 16 a.toNat = a := by simp
  obtain hg | ⟨hlo, hhi⟩ | ⟨hlo, hhi⟩ | hgap : a.toNat ≤ 6 ∨ (64 ≤ a.toNat ∧ a.toNat ≤ 107) ∨
      (128 ≤ a.toNat ∧ a.toNat ≤ 147) ∨ (7 ≤ a.toNat ∧ a.toNat < 64) ∨ (108 ≤ a.toNat ∧ a.toNat < 128) ∨
      148 ≤ a.toNat := by omega
  · rw [decodePoke_global a v hg]
    simpa only [ha] using decodeGlobal_isPoke v hg
  · rw [decodePoke_eg a (a.toNat - 64) v (by omega) (by omega)]
    simpa only [ha] using decodeEg_isPoke v hlo hhi
  · rw [decodePoke_ch a (a.toNat - 128) v (by omega) (by omega)]
    simpa only [ha] using decodeCh_isPoke v hlo hhi
  · exact ⟨_, decodePoke_unassigned a v hgap, decodeUnassigned_isPoke a v hgap⟩

/-- Every transaction decodes, to a well-formed instruction that encodes back to it (R332). -/
theorem decode_total (t : Transaction) : ∃ i, decode t = .ok i ∧ i.wellFormed = true ∧ encode i = some t := by
  cases t with
  | poke w =>
    obtain ⟨i, hdecode, hpoke⟩ := decodePoke_isPoke (pokeRegister w) (pokeValue w)
    exact ⟨i, hdecode, hpoke.wellFormed, by rw [hpoke.encode_eq, pokeWord_parts]⟩
  | init | destroy | render => exact ⟨_, rfl, rfl, rfl⟩

/-- A well-formed instruction completes in every state: STAGE.PROCESS has the one guarded meaning, and its guard is the check on
its operand (R330, R237). -/
theorem exec_completes {i : Instr} (hw : i.wellFormed = true) (s : State) : ∃ t, exec i s = .next t := by
  cases i with
  | stageProcess c k x side => exact ⟨_, exec_stageProcess c k x side s ((inSatRange_eq x).mp hw)⟩
  | _ => exact ⟨_, rfl⟩

/-- With no operation issued a step changes nothing (R360). -/
theorem step_of_queue_nil {s : State} (hq : s.queue = []) : step s = .next s := by
  simp only [step, hq]

/-- A step runs the instruction its oldest transaction decodes to, with the transaction taken from the queue (R12). -/
theorem step_of_queue_cons {s : State} {t : Transaction} {rest : List Transaction} {i : Instr}
    (hq : s.queue = t :: rest) (hdecode : decode t = .ok i) : step s = exec i (s.setQueue rest) := by
  simp only [step, hq, hdecode]

/-- Every step completes: what it takes from the queue decodes to a well-formed instruction (R330, R332). -/
theorem step_completes (s : State) : ∃ t, step s = .next t := by
  cases hq : s.queue with
  | nil => exact ⟨s, step_of_queue_nil hq⟩
  | cons t rest =>
    obtain ⟨i, hdecode, hw, -⟩ := decode_total t
    rw [step_of_queue_cons hq hdecode]
    exact exec_completes hw _

/-- Settles O5: the decoder is total on transactions, and the instruction it gives is well-formed, so it completes. -/
theorem everyTransactionDecodes : Obligations.EveryTransactionDecodes := fun t =>
  let ⟨i, hdecode, hw, hencode⟩ := decode_total t
  ⟨i, hdecode, hw, hencode, exec_completes hw⟩

/-- Settles O48: `Fault` has no constructor, and a step meets well-formed instructions only. -/
theorem everyOperationCompletes : Obligations.EveryOperationCompletes :=
  ⟨nofun, fun _ s hw => exec_completes hw s, step_completes⟩

end Sys2Proof.Machine
end

section
/-! The address decode read backwards (30_encoding.md R100 to R104, R111): it undoes the encoder, and it says once, for every POKE
and in every state, what the POKE does to the chip (R130, R137, R155). -/

namespace Sys2Proof.Machine

/-- The encoder's transaction decodes to its instruction, by the round trip of each constructor (R100 to R104). -/
theorem roundTrip (i : Instr) : Laws.RoundTrip.Statement i := by
  cases i with
  | gCtrl v => exact Laws.RoundTrip.gCtrl v
  | gChsel v => exact Laws.RoundTrip.gChsel v
  | gEgselLo v => exact Laws.RoundTrip.gEgselLo v
  | gEgselHi v => exact Laws.RoundTrip.gEgselHi v
  | gWptrLo v => exact Laws.RoundTrip.gWptrLo v
  | gWptrHi v => exact Laws.RoundTrip.gWptrHi v
  | gWdata v => exact Laws.RoundTrip.gWdata v
  | egCtrl v => exact Laws.RoundTrip.egCtrl v
  | egMul v => exact Laws.RoundTrip.egMul v
  | egHold v => exact Laws.RoundTrip.egHold v
  | egStride v => exact Laws.RoundTrip.egStride v
  | egTbl0 v => exact Laws.RoundTrip.egTbl0 v
  | egTbl1 v => exact Laws.RoundTrip.egTbl1 v
  | egTbl2 v => exact Laws.RoundTrip.egTbl2 v
  | egTbl3 v => exact Laws.RoundTrip.egTbl3 v
  | egTbl4 v => exact Laws.RoundTrip.egTbl4 v
  | egTbl5 v => exact Laws.RoundTrip.egTbl5 v
  | egTbl6 v => exact Laws.RoundTrip.egTbl6 v
  | egTbl7 v => exact Laws.RoundTrip.egTbl7 v
  | egTbl8 v => exact Laws.RoundTrip.egTbl8 v
  | egTbl9 v => exact Laws.RoundTrip.egTbl9 v
  | egTbl10 v => exact Laws.RoundTrip.egTbl10 v
  | egTbl11 v => exact Laws.RoundTrip.egTbl11 v
  | egTbl12 v => exact Laws.RoundTrip.egTbl12 v
  | egTbl13 v => exact Laws.RoundTrip.egTbl13 v
  | egTbl14 v => exact Laws.RoundTrip.egTbl14 v
  | egTbl15 v => exact Laws.RoundTrip.egTbl15 v
  | egTbl16 v => exact Laws.RoundTrip.egTbl16 v
  | egTbl17 v => exact Laws.RoundTrip.egTbl17 v
  | egTbl18 v => exact Laws.RoundTrip.egTbl18 v
  | egTbl19 v => exact Laws.RoundTrip.egTbl19 v
  | egTbl20 v => exact Laws.RoundTrip.egTbl20 v
  | egTbl21 v => exact Laws.RoundTrip.egTbl21 v
  | egTbl22 v => exact Laws.RoundTrip.egTbl22 v
  | egTbl23 v => exact Laws.RoundTrip.egTbl23 v
  | egTbl24 v => exact Laws.RoundTrip.egTbl24 v
  | egTbl25 v => exact Laws.RoundTrip.egTbl25 v
  | egTbl26 v => exact Laws.RoundTrip.egTbl26 v
  | egTbl27 v => exact Laws.RoundTrip.egTbl27 v
  | egTbl28 v => exact Laws.RoundTrip.egTbl28 v
  | egTbl29 v => exact Laws.RoundTrip.egTbl29 v
  | egTbl30 v => exact Laws.RoundTrip.egTbl30 v
  | egTbl31 v => exact Laws.RoundTrip.egTbl31 v
  | egTbl32 v => exact Laws.RoundTrip.egTbl32 v
  | egTbl33 v => exact Laws.RoundTrip.egTbl33 v
  | egTbl34 v => exact Laws.RoundTrip.egTbl34 v
  | egTbl35 v => exact Laws.RoundTrip.egTbl35 v
  | egTbl36 v => exact Laws.RoundTrip.egTbl36 v
  | egTbl37 v => exact Laws.RoundTrip.egTbl37 v
  | egTbl38 v => exact Laws.RoundTrip.egTbl38 v
  | egTbl39 v => exact Laws.RoundTrip.egTbl39 v
  | chCtrl v => exact Laws.RoundTrip.chCtrl v
  | chVolL v => exact Laws.RoundTrip.chVolL v
  | chVolR v => exact Laws.RoundTrip.chVolR v
  | chAccmax v => exact Laws.RoundTrip.chAccmax v
  | chAeg v => exact Laws.RoundTrip.chAeg v
  | chFeg0 v => exact Laws.RoundTrip.chFeg0 v
  | chFeg1 v => exact Laws.RoundTrip.chFeg1 v
  | chFeg2 v => exact Laws.RoundTrip.chFeg2 v
  | chFeg3 v => exact Laws.RoundTrip.chFeg3 v
  | chFeg4 v => exact Laws.RoundTrip.chFeg4 v
  | chFeg5 v => exact Laws.RoundTrip.chFeg5 v
  | chFeg6 v => exact Laws.RoundTrip.chFeg6 v
  | chFeg7 v => exact Laws.RoundTrip.chFeg7 v
  | chFeg8 v => exact Laws.RoundTrip.chFeg8 v
  | chFeg9 v => exact Laws.RoundTrip.chFeg9 v
  | chLoopsLo v => exact Laws.RoundTrip.chLoopsLo v
  | chLoopsHi v => exact Laws.RoundTrip.chLoopsHi v
  | chLoopeLo v => exact Laws.RoundTrip.chLoopeLo v
  | chLoopeHi v => exact Laws.RoundTrip.chLoopeHi v
  | ignored0007 v => exact Laws.RoundTrip.ignored0007 v
  | ignored0008 a v => exact Laws.RoundTrip.ignored0008 a v
  | ignored0010 a v => exact Laws.RoundTrip.ignored0010 a v
  | ignored0020 a v => exact Laws.RoundTrip.ignored0020 a v
  | ignored006C a v => exact Laws.RoundTrip.ignored006C a v
  | ignored0070 a v => exact Laws.RoundTrip.ignored0070 a v
  | ignored008F v => exact Laws.RoundTrip.ignored008F v
  | ignored0094 a v => exact Laws.RoundTrip.ignored0094 a v
  | ignored0098 a v => exact Laws.RoundTrip.ignored0098 a v
  | ignored00A0 a v => exact Laws.RoundTrip.ignored00A0 a v
  | ignored00C0 a v => exact Laws.RoundTrip.ignored00C0 a v
  | ignored0100 a v => exact Laws.RoundTrip.ignored0100 a v
  | ignored0200 a v => exact Laws.RoundTrip.ignored0200 a v
  | ignored0400 a v => exact Laws.RoundTrip.ignored0400 a v
  | ignored0800 a v => exact Laws.RoundTrip.ignored0800 a v
  | ignored1000 a v => exact Laws.RoundTrip.ignored1000 a v
  | ignored2000 a v => exact Laws.RoundTrip.ignored2000 a v
  | ignored4000 a v => exact Laws.RoundTrip.ignored4000 a v
  | ignored8000 a v => exact Laws.RoundTrip.ignored8000 a v
  | init => exact Laws.RoundTrip.init
  | destroy => exact Laws.RoundTrip.destroy
  | render n => exact Laws.RoundTrip.render n
  | frame => exact Laws.RoundTrip.frame
  | chRender c side => exact Laws.RoundTrip.chRender c side
  | egRender e x => exact Laws.RoundTrip.egRender e x
  | stageProcess c k x side => exact Laws.RoundTrip.stageProcess c k x side
  | lut level => exact Laws.RoundTrip.lut level

/-- Settles O4: the round trip of each constructor. -/
theorem decodeInvertsEncode : Obligations.DecodeInvertsEncode := fun i t hw he => roundTrip i hw t he

/-- A POKE written from an address and a byte decodes by the address map (R100, R101). -/
@[simp] theorem decode_poke_pokeWord (a : Reg16) (v : Byte) : decode (.poke (pokeWord a v)) = decodePoke a v := by
  simp only [decode, pokeRegister_pokeWord, pokeValue_pokeWord]

/-- What a POKE does, the same in every state: nothing; a write to the global block, whose result depends on G.CTRL in G.CTRL at
most; the data write; or a broadcast that keeps the runtime fields of its units (R130, R137, R155, R158). -/
inductive PokeMeaning (i : Instr) : Prop where
  | ignored (h : ∀ s, exec i s = ignoredWrite s)
  | global (f : Global → Global) (h : ∀ s, exec i s = globalWrite f s)
      (hf : ∀ g v, ∃ w, f { g with ctrl := v } = { f g with ctrl := w })
  | data (v : Byte) (h : ∀ s, exec i s = execGWdata v s)
  | egs (f : Eg → Eg) (h : ∀ s, exec i s = egBroadcast f s) (hf : ∀ g, Eg.sameRuntime g (f g))
  | chs (f : Channel → Channel) (h : ∀ s, exec i s = chBroadcast f s) (hf : ∀ ch, Channel.sameRuntime ch (f ch))

/-- The rows of the global block's table (R102). -/
theorem decodeGlobal_meaning {n : Nat} {v : Byte} {i : Instr} (h : decodeGlobal n v = .ok i) : PokeMeaning i := by
  unfold decodeGlobal at h
  split at h <;> cases h
  · exact .global (fun g => { g with ctrl := v }) (fun _ => rfl) fun _ _ => ⟨v, rfl⟩
  · exact .global (fun g => { g with chsel := v }) (fun _ => rfl) fun _ w => ⟨w, rfl⟩
  · exact .global (fun g => { g with egsel := setLo g.egsel v }) (fun _ => rfl) fun _ w => ⟨w, rfl⟩
  · exact .global (fun g => { g with egsel := setHi g.egsel v }) (fun _ => rfl) fun _ w => ⟨w, rfl⟩
  · exact .global (fun g => { g with wptr := setLo g.wptr v }) (fun _ => rfl) fun _ w => ⟨w, rfl⟩
  · exact .global (fun g => { g with wptr := setHi g.wptr v }) (fun _ => rfl) fun _ w => ⟨w, rfl⟩
  · exact .data v fun _ => rfl

/-- The rows of the EG block's table (R103). -/
theorem decodeEg_meaning {n : Nat} {v : Byte} {i : Instr} (h : decodeEg n v = .ok i) : PokeMeaning i := by
  unfold decodeEg at h
  split at h <;> cases h <;> exact .egs _ (fun _ => rfl) fun _ => ⟨rfl, rfl, rfl⟩

/-- The rows of the channel block's table, the pad 0x008F among them (R104). -/
theorem decodeCh_meaning {n : Nat} {v : Byte} {i : Instr} (h : decodeCh n v = .ok i) : PokeMeaning i := by
  unfold decodeCh at h
  split at h <;> cases h
  case h_16 => exact .ignored fun _ => rfl
  all_goals exact .chs _ (fun _ => rfl) fun _ => ⟨rfl, rfl, rfl⟩

/-- Outside the tables every block is an ignored one (R111). -/
theorem decodeUnassigned_ignored (a : Reg16) (v : Byte) : ∃ p, (decodeUnassigned a v).ignoredPoke = some p := by
  unfold decodeUnassigned
  repeat refine iteInduction (motive := fun i => ∃ p, Instr.ignoredPoke i = some p) (fun _ => ⟨_, rfl⟩) fun _ => ?_
  exact ⟨_, rfl⟩

/-- The pad of the channel block is an ignored write (R104). -/
theorem decodePoke_pad {a : Reg16} (ha : a.toNat = 0x8F) (v : Byte) : decodePoke a v = .ok (.ignored008F v) :=
  (decodePoke_ch a 15 v ha (by decide)).trans rfl

/-- Every POKE has one of the meanings: the four cases of the address decode (R101). -/
theorem decodePoke_meaning {a : Reg16} {v : Byte} {i : Instr} (h : decodePoke a v = .ok i) : PokeMeaning i := by
  obtain hg | ⟨hlo, hhi⟩ | ⟨hlo, hhi⟩ | hgap : a.toNat ≤ 6 ∨ (64 ≤ a.toNat ∧ a.toNat ≤ 107) ∨
      (128 ≤ a.toNat ∧ a.toNat ≤ 147) ∨ (7 ≤ a.toNat ∧ a.toNat < 64) ∨ (108 ≤ a.toNat ∧ a.toNat < 128) ∨
      148 ≤ a.toNat := by omega
  · exact decodeGlobal_meaning ((decodePoke_global a v hg).symm.trans h)
  · exact decodeEg_meaning ((decodePoke_eg a (a.toNat - 64) v (by omega) (by omega)).symm.trans h)
  · exact decodeCh_meaning ((decodePoke_ch a (a.toNat - 128) v (by omega) (by omega)).symm.trans h)
  · obtain ⟨p, hp⟩ := decodeUnassigned_ignored a v
    cases (decodePoke_unassigned a v hgap).symm.trans h
    exact .ignored fun s => exec_of_ignoredPoke hp s

/-- A well-formed instruction that the host can issue as a POKE has one of the meanings. -/
theorem meaning_of_encode {i : Instr} {w : BitVec 24} (hw : i.wellFormed = true) (he : encode i = some (.poke w)) :
    PokeMeaning i :=
  decodePoke_meaning (decodeInvertsEncode i _ hw he)

end Sys2Proof.Machine
end

section
/-! G.CTRL (R107, R131; decision D2): no rule reads it, so an operation that copies the global block copies G.CTRL along. -/

namespace Sys2Proof.Machine

/-- The instruction completes on two states that differ in G.CTRL alone, and leaves two such states. -/
def IgnoresCtrl (i : Instr) : Prop :=
  ∀ (s : State) (v : Byte), ∃ t w, exec i s = .next t ∧ exec i (s.withCtrl v) = .next (t.withCtrl w)

/-- A POKE, whatever its meaning, takes G.CTRL along (R107). -/
theorem PokeMeaning.ignoresCtrl {i : Instr} (h : PokeMeaning i) : IgnoresCtrl i := by
  intro s v
  cases h with
  | ignored h => exact ⟨s, v, h s, h _⟩
  | global f h hf =>
    obtain ⟨w, hw⟩ := hf s.chip.g v
    refine ⟨_, w, h s, (h _).trans ?_⟩
    show globalWrite f (s.withCtrl v) = _
    simp only [globalWrite, State.withCtrl, State.setChip_chip, Chip.setG_g, hw]
    rfl
  | data b h => exact ⟨_, v, h s, h _⟩
  | egs f h hf => exact ⟨_, v, h s, h _⟩
  | chs f h hf => exact ⟨_, v, h s, h _⟩

/-! No render operation reads the global block: each commutes with any replacement of it. -/

@[simp] theorem egRender_setG (lut e x) (c : Chip) (g : Global) :
    egRender lut e x (c.setG g) = ((egRender lut e x c).1.setG g, (egRender lut e x c).2) := rfl

@[simp] theorem stageProcess_setG (k j x side) (c : Chip) (g : Global) :
    stageProcess k j x side (c.setG g) = ((stageProcess k j x side c).1.setG g, (stageProcess k j x side c).2) := rfl

@[simp] theorem modifyCh_setG (c : Chip) (k : Fin 8) (f : Channel → Channel) (g : Global) :
    (c.setG g).modifyCh k f = (c.modifyCh k f).setG g := rfl

theorem markReferenced_setG (c : Chip) (g : Global) : (c.setG g).markReferenced = c.markReferenced.setG g := by
  simp only [Chip.markReferenced, refMask, Chip.setG_ch]
  rfl

/-- A run of operations commutes with a replacement of the global block when each of them does. -/
theorem foldl_setG {α β : Type} {f : Chip × α → β → Chip × α} {g : Global}
    (hf : ∀ c a b, f (c.setG g, a) b = ((f (c, a) b).1.setG g, (f (c, a) b).2)) (l : List β) (c : Chip) (a : α) :
    l.foldl f (c.setG g, a) = ((l.foldl f (c, a)).1.setG g, (l.foldl f (c, a)).2) := by
  induction l generalizing c a with
  | nil => rfl
  | cons b l ih => rw [List.foldl_cons, List.foldl_cons, hf, ih]

@[simp] theorem renderFegs_setG (lut feg) (c : Chip) (g : Global) :
    renderFegs lut feg (c.setG g) = ((renderFegs lut feg c).1.setG g, (renderFegs lut feg c).2) := by
  rw [renderFegs, renderFegs, foldl_setG fun _ _ _ => rfl]

@[simp] theorem chRender_setG (lut k side) (c : Chip) (g : Global) :
    chRender lut k side (c.setG g) = ((chRender lut k side c).1.setG g, (chRender lut k side c).2) := by
  simp only [chRender, modifyCh_setG, Chip.setG_ch, Chip.setG_mem, renderFegs_setG, stageProcess_setG, egRender_setG]

theorem addChannel_setG (lut) (c : Chip) (f : StereoFrame) (k : Fin 8) (g : Global) :
    addChannel lut (c.setG g, f) k = ((addChannel lut (c, f) k).1.setG g, (addChannel lut (c, f) k).2) := by
  simp only [addChannel, chRender_setG]

@[simp] theorem frame_setG (lut) (c : Chip) (g : Global) :
    frame lut (c.setG g) = ((frame lut c).1.setG g, (frame lut c).2) := by
  rw [frame, frame, markReferenced_setG, foldl_setG fun c f k => addChannel_setG lut c f k g]

@[simp] theorem renderFrames_setG (lut n) (c : Chip) (g : Global) :
    renderFrames lut n (c.setG g) = ((renderFrames lut n c).1.setG g, (renderFrames lut n c).2) := by
  induction n generalizing c with
  | zero => rfl
  | succ n ih => simp only [renderFrames_succ, frame_setG, ih]

@[simp] theorem renderFrames_g (lut n) (c : Chip) : (renderFrames lut n c).1.g = c.g :=
  renderFrames_induction lut (P := fun d => d.g = c.g) (fun _ h => (frame_g lut _).trans h) n rfl

/-- A micro-operation or a RENDER takes G.CTRL along: it commutes with a replacement of the global block and leaves the block as
it is, and what it returns goes to a field outside the chip. -/
theorem ignoresCtrl_of_setG {α : Type} {i : Instr} {F : Chip → Chip × α} {put : α → State → State}
    (hexec : ∀ s, exec i s = .next (put (F s.chip).2 (s.setChip (F s.chip).1)))
    (hput : ∀ a s c, put a (s.setChip c) = (put a s).setChip c)
    (hsetG : ∀ c g, F (c.setG g) = ((F c).1.setG g, (F c).2)) (hg : ∀ c, (F c).1.g = c.g) : IgnoresCtrl i := by
  intro s v
  refine ⟨_, v, hexec s, ?_⟩
  rw [hexec, State.withCtrl, State.setChip_chip, hsetG]
  simp only [hput, State.withCtrl, State.setChip_chip, hg]
  rfl

/-- Settles O51: a POKE takes G.CTRL along by its meaning, INIT overwrites it on both states, and the render operations commute
with a replacement of the global block, which they leave as it is. -/
theorem controlByteInfluencesNothing : Obligations.ControlByteInfluencesNothing := by
  intro i s v hw
  revert s v
  change IgnoresCtrl i
  cases i with
  | init => exact fun s v => ⟨_, 0, exec_init s, exec_init _⟩
  | destroy => exact fun s v => ⟨s, v, rfl, rfl⟩
  | lut level => exact fun s v => ⟨_, v, rfl, rfl⟩
  | egRender e x =>
    exact ignoresCtrl_of_setG (put := fun y s => s.setRet (.sample y)) (exec_egRender e x) (fun _ _ _ => rfl)
      (egRender_setG _ e x) (egRender_g _ e x)
  | stageProcess c k x side =>
    exact ignoresCtrl_of_setG (put := fun y s => s.setRet (.sample y))
      (fun s => exec_stageProcess c k x side s ((inSatRange_eq x).mp hw)) (fun _ _ _ => rfl)
      (stageProcess_setG c k x side) (stageProcess_g c k x side)
  | chRender c side =>
    exact ignoresCtrl_of_setG (put := fun y s => s.setRet (.sample y)) (exec_chRender c side) (fun _ _ _ => rfl)
      (chRender_setG _ c side) (chRender_g _ c side)
  | frame =>
    exact ignoresCtrl_of_setG (put := fun f s => s.setRet (.stereo f)) exec_frame (fun _ _ _ => rfl) (frame_setG _)
      (frame_g _)
  | render n =>
    exact ignoresCtrl_of_setG (put := fun fs s => s.emit fs) (exec_render n) (fun _ _ _ => rfl) (renderFrames_setG _ _)
      (renderFrames_g _ _)
  | _ => exact (meaning_of_encode hw rfl).ignoresCtrl

end Sys2Proof.Machine
end

section
/-! The invariant between operations (R22, R25, R26, R29, R307): one property of each EG and one of each channel, kept by every
operation on a unit, hence by every instruction and by every step. -/

namespace Sys2Proof.Machine

/-- What the invariant says of an EG: the cursor in 0..40, no step queued (R25, R307). -/
def Eg.Settled (g : Eg) : Prop := g.currentEntry.toNat ≤ 40 ∧ g.stepQueued = false

/-- What the invariant says of a channel: every delay entry in [-32767, 32767] (R29). -/
def Channel.InRange (ch : Channel) : Prop := ∀ k side, ((ch.stage k).delay side).InRange

/-- The invariant of State.Inv as a property of the chip. -/
structure Chip.Inv (c : Chip) : Prop where
  mem : Memory.wf c.mem
  egs : ∀ e, (c.eg e).Settled
  chs : ∀ k, (c.ch k).InRange

theorem State.inv_iff (s : State) : s.Inv ↔ s.chip.Inv := by
  constructor
  · exact fun ⟨hm, he, hc⟩ => ⟨hm, he, fun k j side => by cases side; exacts [(hc k j).1, (hc k j).2]⟩
  · exact fun h => ⟨h.mem, h.egs, fun k j => ⟨h.chs k j .left, h.chs k j .right⟩⟩

theorem Eg.sameRuntime_refl (g : Eg) : Eg.sameRuntime g g := ⟨rfl, rfl, rfl⟩

theorem Channel.sameRuntime_refl (ch : Channel) : Channel.sameRuntime ch ch := ⟨rfl, rfl, rfl⟩

/-- A broadcast to the EGs that keeps the runtime fields of each keeps those of all (R158). -/
theorem mapEgs_sameRuntime {f : Eg → Eg} (hf : ∀ g, Eg.sameRuntime g (f g)) (c : Chip) (sel : Fin 16 → Bool) (e : Fin 16) :
    Eg.sameRuntime (c.eg e) ((c.mapEgs sel f).eg e) := by
  rw [Chip.mapEgs_eg]
  split
  · exact hf _
  · exact Eg.sameRuntime_refl _

/-- A broadcast to the channels that keeps the runtime fields of each keeps those of all (R158). -/
theorem mapChs_sameRuntime {f : Channel → Channel} (hf : ∀ ch, Channel.sameRuntime ch (f ch)) (c : Chip)
    (sel : Fin 8 → Bool) (k : Fin 8) : Channel.sameRuntime (c.ch k) ((c.mapChs sel f).ch k) := by
  rw [Chip.mapChs_ch]
  split
  · exact hf _
  · exact Channel.sameRuntime_refl _

theorem DelayLine.push_inRange {d : DelayLine} {x : Sample} (hd : d.InRange) (hx : x ≠ 0x8000) : (d.push x).InRange :=
  let ⟨h0, h1, _⟩ := hd
  ⟨hx, negDelay_ne_min h0, negDelay_ne_min h1⟩

/-- A broadcast to the EGs keeps the runtime fields, hence the unit's part of the invariant (R158). -/
theorem Eg.Settled.of_sameRuntime {g h : Eg} (hg : g.Settled) (hr : Eg.sameRuntime g h) : h.Settled :=
  let ⟨hentry, _, hqueued⟩ := hr
  ⟨hentry ▸ hg.1, hqueued.trans hg.2⟩

theorem Eg.advance_settled {g : Eg} (h : g.currentEntry.toNat ≤ 40) : g.advance.Settled :=
  ⟨Eg.advance_entry_le h, g.advance_stepQueued⟩

/-- An EG that an operation renders or leaves alone stays settled. -/
theorem Eg.Settled.ite_advance {g : Eg} (h : g.Settled) (p : Prop) [Decidable p] : (if p then g.advance else g).Settled := by
  split
  · exact Eg.advance_settled h.1
  · exact h

theorem Channel.InRange.of_sameRuntime {a b : Channel} (ha : a.InRange) (hr : Channel.sameRuntime a b) : b.InRange := by
  obtain ⟨-, -, hst⟩ := hr
  intro k
  rw [Channel.stage, hst]
  exact ha k

theorem Channel.InRange.process {ch : Channel} (h : ch.InRange) (k : Fin 2) {x : Sample} (hx : x ≠ 0x8000) (side : Side) :
    (ch.setStage k ((ch.stage k).process x side).1).InRange := by
  intro j i
  rw [Channel.setStage_stage]
  split
  · rw [Stage.process_delay]
    split
    · exact DelayLine.push_inRange (h k side) hx
    · exact h k i
  · exact h j i

theorem Channel.InRange.rendered {ch : Channel} (h : ch.InRange) (side : Side) {x : Sample} (hx : x ≠ 0x8000) (v) :
    (ch.rendered side x v).InRange := by
  intro k i
  obtain ⟨y, hy, hd⟩ := ch.rendered_delay side i x v k
  rw [hd]
  split
  · exact DelayLine.push_inRange (h k side) (hy hx)
  · exact h k i

@[simp] theorem Channel.reset_stage (k : Fin 2) : Channel.reset.stage k = Stage.reset := by
  simp only [Channel.stage, Channel.reset, Fin.getElem_fin, Vector.getElem_replicate]

namespace Chip.Inv

variable {c : Chip}

theorem reset : Chip.reset.Inv := by
  refine ⟨reset_mem_wf, fun e => ?_, fun k j side => ?_⟩
  · rw [Chip.reset_eg]
    exact ⟨Nat.zero_le _, rfl⟩
  · rw [Chip.reset_ch, Channel.reset_stage]
    cases side <;> decide

theorem setG (h : c.Inv) (g : Global) : (c.setG g).Inv := ⟨h.mem, h.egs, h.chs⟩

theorem writeData (h : c.Inv) (v : Byte) : (c.writeData v).Inv := ⟨Chip.writeData_mem_wf h.mem v, h.egs, h.chs⟩

theorem mapEgs (h : c.Inv) (sel) {f : Eg → Eg} (hf : ∀ g, Eg.sameRuntime g (f g)) : (c.mapEgs sel f).Inv :=
  ⟨h.mem, fun e => (h.egs e).of_sameRuntime (mapEgs_sameRuntime hf c sel e), h.chs⟩

theorem mapChs (h : c.Inv) (sel) {f : Channel → Channel} (hf : ∀ ch, Channel.sameRuntime ch (f ch)) :
    (c.mapChs sel f).Inv :=
  ⟨h.mem, h.egs, fun k => (h.chs k).of_sameRuntime (mapChs_sameRuntime hf c sel k)⟩

theorem egRender (h : c.Inv) (lut e x) : (egRender lut e x c).1.Inv :=
  ⟨h.mem, fun i => by rw [egRender_eg]; exact (h.egs i).ite_advance _, h.chs⟩

theorem stageProcess (h : c.Inv) (k j) {x : Sample} (hx : x ≠ 0x8000) (side) : (stageProcess k j x side c).1.Inv := by
  refine ⟨h.mem, h.egs, fun i => ?_⟩
  rw [stageProcess_ch]
  split
  · exact (h.chs k).process j hx side
  · exact h.chs i

theorem chRender (h : c.Inv) (lut k side) : (chRender lut k side c).1.Inv := by
  refine ⟨(chRender_mem lut k side c).symm ▸ h.mem, fun e => ?_, fun i => ?_⟩
  · rw [chRender_eg]
    exact (h.egs e).ite_advance _
  · rw [chRender_ch]
    split
    · exact (h.chs k).rendered side (chInput_ne_min _ _ _) _
    · exact h.chs i

/-- A frame queues a step of a referenced EG and consumes it (R307). -/
theorem frame (h : c.Inv) (lut) : (frame lut c).1.Inv := by
  refine ⟨(frame_mem lut c).symm ▸ h.mem, fun e => ?_, fun k => ?_⟩
  · rw [frame_eg]
    split
    · exact Eg.advance_settled (h.egs e).1
    · exact h.egs e
  · obtain ⟨x, v, x', v', hx, hx', hch⟩ := frame_ch lut c k
    rw [hch]
    exact ((h.chs k).rendered .left hx v).rendered .right hx' v'

theorem renderFrames (h : c.Inv) (lut n) : (renderFrames lut n c).1.Inv :=
  renderFrames_induction lut (fun _ hc => hc.frame lut) n h

end Chip.Inv

/-- Settles O53: each of the twelve effects of an instruction keeps the chip's invariant. -/
theorem execKeepsInvariant : Obligations.ExecKeepsInvariant := by
  intro i s t hs hexec
  rw [State.inv_iff] at hs ⊢
  cases exec_effect hexec with
  | same h => exact h ▸ hs
  | global f h => exact h ▸ hs.setG _
  | data v _ h => exact h ▸ hs.writeData v
  | egWrite f hf h => exact h ▸ hs.mapEgs _ hf.runtime
  | chWrite f hf h => exact h ▸ hs.mapChs _ hf
  | init _ h => exact h ▸ Chip.Inv.reset
  | lut r h => exact h ▸ hs
  | egRender e x _ h => exact h ▸ hs.egRender Config.expLut e x
  | stageProcess c k x side hx _ h => exact h ▸ hs.stageProcess c k hx side
  | chRender c side _ h => exact h ▸ hs.chRender _ c side
  | frame _ h => exact h ▸ hs.frame _
  | render n _ h => exact h ▸ hs.renderFrames _ _

/-- A step that gives a next state is idle, or it takes the oldest operation from the queue and runs what that decodes to. -/
theorem step_cases {s t : State} (h : step s = .next t) :
    t = s ∨ ∃ o rest i, s.queue = o :: rest ∧ decode o = .ok i ∧ exec i (s.setQueue rest) = .next t := by
  cases hq : s.queue with
  | nil => exact .inl (next_inj ((step_of_queue_nil hq).symm.trans h))
  | cons o rest =>
    obtain ⟨i, hdecode, -, -⟩ := decode_total o
    exact .inr ⟨o, rest, i, rfl, hdecode, (step_of_queue_cons hq hdecode).symm.trans h⟩

/-- Settles O54: the invariant does not speak of the queue, so a step keeps it as the instruction it runs does. -/
theorem stepKeepsInvariant : Obligations.StepKeepsInvariant := by
  intro s t hs hstep
  obtain rfl | ⟨o, rest, i, -, -, hexec⟩ := step_cases hstep
  · exact hs
  · exact execKeepsInvariant i (s.setQueue rest) t hs hexec

/-- Settles O52. -/
theorem resetSatisfiesInvariant : Obligations.ResetSatisfiesInvariant := (State.inv_iff State.reset).mpr Chip.Inv.reset

end Sys2Proof.Machine
end

section
/-! What one instruction and what a RENDER leave alone: the hold-point lock (R209), the sample memory (R73), the configuration
(R23, R24, R30) and the EGs no channel references (R211). -/

namespace Sys2Proof.Machine

/-- A write to an EG that is neither EG.CTRL nor EG.HOLD keeps the hold-point lock (R24, R158). -/
theorem EgWrite.holdLocked {i : Instr} {f : Eg → Eg} (hf : EgWrite i f) (hctrl : ∀ v, i ≠ .egCtrl v)
    (hhold : ∀ v, i ≠ .egHold v) {g : Eg} (h : g.HoldLocked) : (f g).HoldLocked := by
  obtain ⟨hentry, -, -⟩ := hf.runtime g
  rw [Eg.HoldLocked, hf.keyOn hctrl, hf.holdPoint hhold, hentry]
  exact h

/-- An EG that an operation renders or leaves alone keeps the hold-point lock (R209). -/
theorem Eg.holdLocked_ite_advance {g : Eg} (h : g.HoldLocked) (p : Prop) [Decidable p] :
    (if p then g.advance else g).HoldLocked := by
  split
  · exact Eg.advance_holdLocked h
  · exact h

/-- Settles O55: an effect either leaves the EG, writes another of its registers, or runs it, once or once a frame. -/
theorem holdLockKeptByEveryInstruction : Obligations.HoldLockKeptByEveryInstruction := by
  intro i s t e hexec hctrl hhold hinit hs
  cases exec_effect hexec with
  | same h | global _ h | data _ _ h | chWrite _ _ h | lut _ h | stageProcess _ _ _ _ _ _ h => exact h ▸ hs
  | egWrite f hf h =>
    rw [h, State.setChip_chip, Chip.mapEgs_eg]
    split
    · exact hf.holdLocked hctrl hhold hs
    · exact hs
  | init hi _ => exact absurd hi hinit
  | egRender j x _ h =>
    rw [h, State.setRet_chip, State.setChip_chip, egRender_eg]
    exact Eg.holdLocked_ite_advance hs _
  | chRender c side _ h =>
    rw [h, State.setRet_chip, State.setChip_chip, chRender_eg]
    exact Eg.holdLocked_ite_advance hs _
  | frame _ h => exact h ▸ frame_holdLocked _ hs
  | render n _ h => exact h ▸ renderFrames_induction (P := fun c => (c.eg e).HoldLocked) _ (fun _ => frame_holdLocked _) _ hs

@[simp] theorem renderFrames_mem (lut n) (c : Chip) : (renderFrames lut n c).1.mem = c.mem :=
  renderFrames_induction lut (P := fun d => d.mem = c.mem) (fun _ h => (frame_mem lut _).trans h) n rfl

/-- Settles O50: of the twelve effects the data write and INIT alone replace the memory. -/
theorem onlyWdataAndInitWriteMemory : Obligations.OnlyWdataAndInitWriteMemory := by
  intro i s t hexec hdata hinit
  cases exec_effect hexec with
  | same h | global _ h | egWrite _ _ h | chWrite _ _ h | lut _ h | egRender _ _ _ h | stageProcess _ _ _ _ _ _ h =>
    exact congrArg (fun u => u.chip.mem) h
  | data v hi _ => exact absurd hi (hdata v)
  | init hi _ => exact absurd hi hinit
  | chRender c side _ h => exact h ▸ chRender_mem _ c side s.chip
  | frame _ h => exact h ▸ frame_mem _ s.chip
  | render n _ h => exact h ▸ renderFrames_mem _ _ s.chip

theorem Eg.sameConfig_refl (g : Eg) : Eg.sameConfig g g := ⟨rfl, rfl, rfl, rfl, rfl⟩

theorem Channel.sameConfig_refl (ch : Channel) : Channel.sameConfig ch ch := ⟨rfl, rfl, rfl, rfl, rfl, rfl, rfl⟩

theorem Eg.sameConfig.trans {a b c : Eg} : Eg.sameConfig a b → Eg.sameConfig b c → Eg.sameConfig a c := by
  rintro ⟨h1, h2, h3, h4, h5⟩ ⟨k1, k2, k3, k4, k5⟩
  exact ⟨k1.trans h1, k2.trans h2, k3.trans h3, k4.trans h4, k5.trans h5⟩

theorem Channel.sameConfig.trans {a b c : Channel} :
    Channel.sameConfig a b → Channel.sameConfig b c → Channel.sameConfig a c := by
  rintro ⟨h1, h2, h3, h4, h5, h6, h7⟩ ⟨k1, k2, k3, k4, k5, k6, k7⟩
  exact ⟨k1.trans h1, k2.trans h2, k3.trans h3, k4.trans h4, k5.trans h5, k6.trans h6, k7.trans h7⟩

/-- One frame changes no configuration field of an EG (R23, R24). -/
theorem frame_eg_sameConfig (lut) (c : Chip) (e : Fin 16) : Eg.sameConfig (c.eg e) ((frame lut c).1.eg e) := by
  rw [frame_eg]
  split
  · exact (c.eg e).queueStep.advance_config
  · exact Eg.sameConfig_refl _

/-- One frame changes no configuration field of a channel (R30). -/
theorem frame_ch_sameConfig (lut) (c : Chip) (k : Fin 8) : Channel.sameConfig (c.ch k) ((frame lut c).1.ch k) := by
  obtain ⟨x, v, x', v', -, -, h⟩ := frame_ch lut c k
  rw [h]
  exact Channel.sameConfig.trans (Channel.rendered_config .left x v _) (Channel.rendered_config .right x' v' _)

theorem renderFrames_eg_sameConfig (lut n) (c : Chip) (e : Fin 16) :
    Eg.sameConfig (c.eg e) ((renderFrames lut n c).1.eg e) :=
  renderFrames_induction lut (P := fun d => Eg.sameConfig (c.eg e) (d.eg e))
    (fun d h => h.trans (frame_eg_sameConfig lut d e)) n (Eg.sameConfig_refl _)

theorem renderFrames_ch_sameConfig (lut n) (c : Chip) (k : Fin 8) :
    Channel.sameConfig (c.ch k) ((renderFrames lut n c).1.ch k) :=
  renderFrames_induction lut (P := fun d => Channel.sameConfig (c.ch k) (d.ch k))
    (fun d h => h.trans (frame_ch_sameConfig lut d k)) n (Channel.sameConfig_refl _)

/-- Settles O43: every frame keeps the four parts. -/
theorem renderLeavesConfiguration : Obligations.RenderLeavesConfiguration := fun n s =>
  ⟨_, exec_render n s, renderFrames_g _ _ s.chip, renderFrames_mem _ _ s.chip, renderFrames_eg_sameConfig _ _ s.chip,
    renderFrames_ch_sameConfig _ _ s.chip⟩

/-- Settles O46: RENDER keeps the lock (O55), and the hold point is configuration (O43). -/
theorem holdPointNeverPassed : Obligations.HoldPointNeverPassed := by
  intro n s e hkeyOn hle
  obtain ⟨t, hexec, -, -, hegs, -⟩ := renderLeavesConfiguration n s
  obtain ⟨-, hentry⟩ := holdLockKeptByEveryInstruction (.render n) s t e hexec nofun nofun nofun ⟨hkeyOn, hle⟩
  obtain ⟨-, hhold, -⟩ := hegs e
  exact ⟨t, hexec, hhold ▸ hentry⟩

/-- A frame changes no channel's references (R30, R302). -/
@[simp] theorem frame_references (lut) (c : Chip) (e : Fin 16) : (frame lut c).1.References e ↔ c.References e := by
  simp only [references_iff, frame_names]

/-- One frame moves a referenced EG by one consumed step and leaves the others (R303, R309). -/
theorem frame_eg_eq (lut) (c : Chip) (e : Fin 16) :
    (frame lut c).1.eg e = if c.References e then (c.eg e).queueStep.advance else c.eg e := by
  rw [frame_eg]
  simp only [references_iff]

/-- An EG no channel references is left as it is by any number of frames (R211). -/
theorem renderFrames_eg_of_not_references (lut n) {c : Chip} {e : Fin 16} (h : ¬c.References e) :
    (renderFrames lut n c).1.eg e = c.eg e := by
  refine (renderFrames_induction lut (P := fun d => ¬d.References e ∧ d.eg e = c.eg e) (fun d hd => ?_) n ⟨h, rfl⟩).2
  obtain ⟨hnot, heq⟩ := hd
  exact ⟨by rwa [frame_references], by rw [frame_eg_eq, if_neg hnot, heq]⟩

/-- Settles O42. -/
theorem unreferencedEgUntouched : Obligations.UnreferencedEgUntouched := fun n s _ h =>
  ⟨_, exec_render n s, renderFrames_eg_of_not_references _ _ h⟩

/-- Settles O41: on a queued EG, one EG.RENDER call is the same consumed step that the frame runs. -/
theorem frameStepsEachReferencedEgOnce : Obligations.FrameStepsEachReferencedEgOnce := by
  intro s
  refine ⟨_, exec_frame s, fun e => ⟨fun href => ?_, fun hnot => ?_⟩⟩
  · obtain ⟨u, hexec, hunit, -⟩ :=
      exec_egRender_unit e false { s with chip := s.chip.setEg e { s.chip.eg e with stepQueued := true } }
    refine ⟨u, hexec, ?_⟩
    rw [hunit, State.setRet_chip, State.setChip_chip, frame_eg_eq, if_pos href, Chip.setEg_eg, if_pos rfl]
    rfl
  · exact (frame_eg_eq _ s.chip e).trans (if_neg hnot)

end Sys2Proof.Machine
end

section
/-! A step and the decoder (R12, R100 to R104, R111, R112). -/

namespace Sys2Proof.Machine

/-- Settles O1: the two kinds of step. -/
theorem stepRunsOldestOperation : Obligations.StepRunsOldestOperation :=
  ⟨fun _ _ _ _ hq hdecode => step_of_queue_cons hq hdecode, fun _ hq => step_of_queue_nil hq⟩

/-- A table word that decodes is one transaction, and that transaction decodes to the same instruction (log 7). -/
theorem tableTransaction_of_decodeTableWord {nbits w : Nat} {i : Instr} (h : decodeTableWord nbits w = some i) :
    ∃ t, tableTransaction nbits w = some t ∧ decode t = .ok i := by
  unfold decodeTableWord at h
  split at h
  · rename_i t ht
    cases hd : decode t with
    | ok j => exact ⟨t, ht, by rw [hd] at h; cases h; exact hd⟩
    | error r => rw [hd] at h; cases h
  · cases h

/-- Settles O2: the placed transaction is the oldest, and the step takes it off the queue again. -/
theorem fetchWordRunsNext : Obligations.FetchWordRunsNext := by
  intro s nbits w i h
  obtain ⟨t, ht, hdecode⟩ := tableTransaction_of_decodeTableWord h
  have hplaced : s.withFetchWord nbits w = s.setQueue (t :: s.queue) := by simp only [State.withFetchWord, ht]
  rw [hplaced]
  exact step_of_queue_cons (State.setQueue_queue s _) hdecode

/-- Settles O3: fifteen fixed words. -/
theorem specWordsDecode : Obligations.SpecWordsDecode := by
  unfold Obligations.SpecWordsDecode
  decide

/-- Settles O6: the two branches of the length check. -/
theorem otherLengthsRejected : Obligations.OtherLengthsRejected := fun _ _ => ⟨fun h => if_pos h, fun h => if_neg h⟩

/-- The rows of the global block's table are registers (R102). -/
theorem decodeGlobal_not_ignored {n : Nat} {v : Byte} {i : Instr} (h : decodeGlobal n v = .ok i) : i.ignoredPoke = none := by
  unfold decodeGlobal at h
  split at h <;> cases h <;> rfl

/-- The rows of the EG block's table are registers (R103). -/
theorem decodeEg_not_ignored {n : Nat} {v : Byte} {i : Instr} (h : decodeEg n v = .ok i) : i.ignoredPoke = none := by
  unfold decodeEg at h
  split at h <;> cases h <;> rfl

/-- The rows of the channel block's table but the pad are registers (R104). -/
theorem decodeCh_not_ignored {n : Nat} {v : Byte} {i : Instr} (hn : n ≠ 15) (h : decodeCh n v = .ok i) :
    i.ignoredPoke = none := by
  unfold decodeCh at h
  split at h <;> cases h
  case h_16 => exact absurd rfl hn
  all_goals rfl

/-- An address that no table names decodes to an ignored block: an unassigned one, or the pad (R111). -/
theorem decodePoke_ignored {a : Reg16} (v : Byte)
    (h : (7 ≤ a.toNat ∧ a.toNat ≤ 0x3F) ∨ (0x6C ≤ a.toNat ∧ a.toNat ≤ 0x7F) ∨ a.toNat = 0x8F ∨ 0x94 ≤ a.toNat) :
    ∃ i p, decodePoke a v = .ok i ∧ i.ignoredPoke = some p := by
  by_cases hpad : a.toNat = 0x8F
  · exact ⟨_, _, decodePoke_pad hpad v, rfl⟩
  · obtain ⟨p, hp⟩ := decodeUnassigned_ignored a v
    exact ⟨_, p, decodePoke_unassigned a v (by omega), hp⟩

/-- A register's address decodes to no ignored block (R101 to R104). -/
theorem decodePoke_not_ignored {a : Reg16} {v : Byte} {i : Instr} (hdecode : decodePoke a v = .ok i)
    (h : a.toNat ≤ 6 ∨ (0x40 ≤ a.toNat ∧ a.toNat ≤ 0x6B) ∨ (0x80 ≤ a.toNat ∧ a.toNat ≤ 0x93 ∧ a.toNat ≠ 0x8F)) :
    i.ignoredPoke = none := by
  obtain hg | ⟨hlo, hhi⟩ | ⟨hlo, hhi, hpad⟩ := h
  · exact decodeGlobal_not_ignored ((decodePoke_global a v hg).symm.trans hdecode)
  · exact decodeEg_not_ignored ((decodePoke_eg a (a.toNat - 64) v (by omega) (by omega)).symm.trans hdecode)
  · exact decodeCh_not_ignored (by omega) ((decodePoke_ch a (a.toNat - 128) v (by omega) (by omega)).symm.trans hdecode)

/-- Settles O7: outside the tables the step runs an ignored write, inside them the decoder answers with a register. -/
theorem unassignedPokeIgnored : Obligations.UnassignedPokeIgnored := by
  intro a v
  constructor
  · intro hout s rest hq
    obtain ⟨i, p, hdecode, hp⟩ := decodePoke_ignored v hout
    rw [step_of_queue_cons hq ((decode_poke_pokeWord a v).trans hdecode)]
    exact exec_of_ignoredPoke hp _
  · intro hin
    obtain ⟨i, hdecode, -⟩ := decodePoke_isPoke a v
    exact ⟨i, hdecode, decodePoke_not_ignored hdecode hin⟩

/-- A POKE keeps every runtime field, the queue, what has been emitted and what was returned (R158, R159). -/
theorem PokeMeaning.runtime {i : Instr} (h : PokeMeaning i) (s : State) : ∃ t, exec i s = .next t ∧
    (∀ e, Eg.sameRuntime (s.chip.eg e) (t.chip.eg e)) ∧ (∀ c, Channel.sameRuntime (s.chip.ch c) (t.chip.ch c)) ∧
    t.out = s.out ∧ t.ret = s.ret ∧ t.queue = s.queue := by
  cases h with
  | ignored h => exact ⟨s, h s, fun _ => Eg.sameRuntime_refl _, fun _ => Channel.sameRuntime_refl _, rfl, rfl, rfl⟩
  | global f h _ => exact ⟨_, h s, fun _ => Eg.sameRuntime_refl _, fun _ => Channel.sameRuntime_refl _, rfl, rfl, rfl⟩
  | data v h => exact ⟨_, h s, fun _ => Eg.sameRuntime_refl _, fun _ => Channel.sameRuntime_refl _, rfl, rfl, rfl⟩
  | egs f h hf =>
    exact ⟨s.setChip (s.chip.mapEgs s.chip.g.selectsEg f), h s, mapEgs_sameRuntime hf s.chip _,
      fun c => (Channel.sameRuntime_refl (s.chip.ch c) :),
      s.setChip_out _, s.setChip_ret _, s.setChip_queue _⟩
  | chs f h hf =>
    exact ⟨s.setChip (s.chip.mapChs s.chip.g.selectsCh f), h s,
      fun e => (Eg.sameRuntime_refl (s.chip.eg e) :), mapChs_sameRuntime hf s.chip _,
      s.setChip_out _, s.setChip_ret _, s.setChip_queue _⟩

/-- Settles O49: the step runs the POKE's meaning on the state without the POKE. -/
theorem pokeLeavesRuntimeState : Obligations.PokeLeavesRuntimeState := by
  intro s w rest hq
  obtain ⟨i, hdecode, -⟩ := decodePoke_isPoke (pokeRegister w) (pokeValue w)
  obtain ⟨t, hexec, hkept⟩ := (decodePoke_meaning hdecode).runtime (s.setQueue rest)
  exact ⟨t, (step_of_queue_cons hq hdecode).trans hexec, hkept⟩

end Sys2Proof.Machine
end

section
/-! The registers, block by block (R131 to R154): the row of the address map, and the write that is the row's meaning. -/

namespace Sys2Proof.Machine

/-- Settles O11: the first row of the global block. -/
theorem controlByteStored : Obligations.ControlByteStored := fun v s =>
  ⟨(decodePoke_global _ v (by decide)).trans rfl, globalWrite_next (fun g => { g with ctrl := v }) s⟩

/-- An address of MEM_SIZE or more reads the cell of the address minus MEM_SIZE (R72, R136; log 2). -/
theorem memRead_sub_memSize (m : Memory) {a : Nat} (h : 32768 ≤ a) : memRead m a = memRead m (a - 32768) :=
  congrArg (readCell m) (Nat.mod_eq_sub_mod h)

/-- Settles O10: four rows of the global block, each the write of one half. -/
theorem selectAndPointerHalves : Obligations.SelectAndPointerHalves := fun v s =>
  ⟨(decodePoke_global _ v (by decide)).trans rfl, (decodePoke_global _ v (by decide)).trans rfl,
    (decodePoke_global _ v (by decide)).trans rfl, (decodePoke_global _ v (by decide)).trans rfl,
    fun _ => memRead_sub_memSize s.chip.mem,
    globalWrite_next (fun g => { g with egsel := setLo g.egsel v }) s,
    globalWrite_next (fun g => { g with egsel := setHi g.egsel v }) s,
    globalWrite_next (fun g => { g with wptr := setLo g.wptr v }) s,
    globalWrite_next (fun g => { g with wptr := setHi g.wptr v }) s⟩

/-- Settles O12: the store is a `MemWrite` at the pointer before its advance, and a `MemWrite` to a canonical memory changes the
reads of its own cell alone. -/
theorem wdataStoresThenAdvances : Obligations.WdataStoresThenAdvances := fun v s hwf =>
  ⟨(decodePoke_global _ v (by decide)).trans rfl, s.setChip (s.chip.writeData v), rfl, rfl,
    BitVec.toNat_add s.chip.g.wptr 1, rfl, rfl, rfl, fun _ => memRead_memWrite_self hwf v,
    fun _ => memRead_memWrite_ne s.chip.mem v, rfl, rfl, rfl, rfl, rfl⟩

/-- Settles O13: the first row of the EG block. -/
theorem egControlAssignsFlags : Obligations.EgControlAssignsFlags := fun v =>
  ⟨(decodePoke_eg _ 0 v (by decide) (by decide)).trans rfl, writesSelectedEgs_of (f := Eg.writeCtrl v) fun _ => rfl⟩

/-- Settles O14: the next two rows; the multiplier's byte reads as two's complement. -/
theorem egMultiplierAndHoldStored : Obligations.EgMultiplierAndHoldStored := fun v =>
  ⟨(decodePoke_eg _ 1 v (by decide) (by decide)).trans rfl, (decodePoke_eg _ 2 v (by decide) (by decide)).trans rfl,
    writesSelectedEgs_of (f := Eg.writeMul v) fun _ => rfl, s8_eq_toInt v,
    writesSelectedEgs_of (f := Eg.writeHold v) fun _ => rfl⟩

/-- Row 4 + n of the EG block is EG.TBL n (R103). -/
theorem decodeEg_egTbl (n : Fin 40) (v : Byte) : decodeEg (4 + n.val) v = .ok (.egTbl n v) := by
  obtain ⟨n, hn⟩ := n
  interval_cases n <;> rfl

/-- EG.TBL n is the broadcast of one table write (R143). -/
theorem exec_egTbl (n : Fin 40) (v : Byte) (s : State) : exec (.egTbl n v) s = egBroadcast (Eg.writeTable n v) s := by
  obtain ⟨n, hn⟩ := n
  interval_cases n <;> rfl

/-- Settles O15: row 3 and the forty rows of the level table. -/
theorem egStrideAndTableStored : Obligations.EgStrideAndTableStored := by
  intro v
  refine ⟨(decodePoke_eg _ 3 v (by decide) (by decide)).trans rfl, writesSelectedEgs_of (f := Eg.writeStride v) fun _ => rfl,
    fun n => ⟨?_, writesSelectedEgs_of (exec_egTbl n v)⟩⟩
  have haddr : (BitVec.ofNat 16 (0x44 + n.val)).toNat = 64 + (4 + n.val) := by simp; omega
  exact (decodePoke_eg _ _ v haddr (by omega)).trans (decodeEg_egTbl n v)

/-- Settles O16: the first row of the channel block. -/
theorem channelControlAssignsFlag : Obligations.ChannelControlAssignsFlag := fun v =>
  ⟨(decodePoke_ch _ 0 v (by decide) (by decide)).trans rfl,
    writesSelectedChannels_of (f := Channel.writeCtrl v) fun _ => rfl⟩

/-- Row 5 + k of the channel block is CH.FEG k (R104). -/
theorem decodeCh_chFeg (k : Fin 10) (v : Byte) : decodeCh (5 + k.val) v = .ok (.chFeg k v) := by
  obtain ⟨k, hk⟩ := k
  interval_cases k <;> rfl

/-- CH.FEG k is the broadcast of one index write (R150). -/
theorem exec_chFeg (k : Fin 10) (v : Byte) (s : State) : exec (.chFeg k v) s = chBroadcast (Channel.writeFeg k v) s := by
  obtain ⟨k, hk⟩ := k
  interval_cases k <;> rfl

/-- An EG index operand is the byte modulo 16 (R110). -/
theorem egIndex_eq (v : Byte) : egIndex v = BitVec.ofNat 4 (v.toNat % 16) :=
  BitVec.eq_of_toNat_eq (by simp)

/-- Settles O17: rows 1 to 14 of the channel block. -/
theorem channelByteRegistersStored : Obligations.ChannelByteRegistersStored := by
  intro v
  refine ⟨(decodePoke_ch _ 1 v (by decide) (by decide)).trans rfl, (decodePoke_ch _ 2 v (by decide) (by decide)).trans rfl,
    (decodePoke_ch _ 3 v (by decide) (by decide)).trans rfl, (decodePoke_ch _ 4 v (by decide) (by decide)).trans rfl,
    fun k => ?_, writesSelectedChannels_of (f := Channel.writeVolL v) fun _ => rfl,
    writesSelectedChannels_of (f := Channel.writeVolR v) fun _ => rfl,
    writesSelectedChannels_of (f := Channel.writeAccMax v) fun _ => rfl, ?_, fun k => ?_⟩
  · have haddr : (BitVec.ofNat 16 (0x85 + k.val)).toNat = 128 + (5 + k.val) := by simp; omega
    exact (decodePoke_ch _ _ v haddr (by omega)).trans (decodeCh_chFeg k v)
  · rw [← egIndex_eq]
    exact writesSelectedChannels_of (f := Channel.writeAeg v) fun _ => rfl
  · rw [← egIndex_eq]
    exact writesSelectedChannels_of (exec_chFeg k v)

/-- Low half first (R108). -/
theorem setHi_setLo_toNat (r : Reg16) (lo hi : Byte) : (setHi (setLo r lo) hi).toNat = hi.toNat * 256 + lo.toNat := by
  have := lo.isLt
  rw [setHi_toNat, setLo_toNat]
  omega

/-- High half first (R108). -/
theorem setLo_setHi_toNat (r : Reg16) (lo hi : Byte) : (setLo (setHi r hi) lo).toNat = hi.toNat * 256 + lo.toNat := by
  rw [setLo_toNat, setHi_toNat]
  omega

/-- Settles O20: each pair of writes is a `setLo` and a `setHi` of one register, in one order or the other. -/
theorem halvesAssembleLittleEndian : Obligations.HalvesAssembleLittleEndian := fun lo hi _ =>
  ⟨⟨_, _, rfl, rfl, setHi_setLo_toNat _ lo hi⟩, ⟨_, _, rfl, rfl, setLo_setHi_toNat _ lo hi⟩,
    ⟨_, _, rfl, rfl, setHi_setLo_toNat _ lo hi⟩, ⟨_, _, rfl, rfl, setLo_setHi_toNat _ lo hi⟩, fun _ hc =>
    ⟨holdsAfterBoth_channels (f := Channel.writeLoopStartLo lo) (g := Channel.writeLoopStartHi hi)
        (P := fun ch => ch.loopStart.toNat = _) (fun _ => rfl) (fun _ => rfl) hc (setHi_setLo_toNat _ lo hi),
      holdsAfterBoth_channels (f := Channel.writeLoopStartHi hi) (g := Channel.writeLoopStartLo lo)
        (P := fun ch => ch.loopStart.toNat = _) (fun _ => rfl) (fun _ => rfl) hc (setLo_setHi_toNat _ lo hi),
      holdsAfterBoth_channels (f := Channel.writeLoopEndLo lo) (g := Channel.writeLoopEndHi hi)
        (P := fun ch => ch.loopEnd.toNat = _) (fun _ => rfl) (fun _ => rfl) hc (setHi_setLo_toNat _ lo hi),
      holdsAfterBoth_channels (f := Channel.writeLoopEndHi hi) (g := Channel.writeLoopEndLo lo)
        (P := fun ch => ch.loopEnd.toNat = _) (fun _ => rfl) (fun _ => rfl) hc (setLo_setHi_toNat _ lo hi)⟩⟩

/-- Settles O22: INIT leaves the reset chip, which is the chip of the reset state. -/
theorem resetIsInitState : Obligations.ResetIsInitState :=
  ⟨fun s t h => by rw [next_inj ((exec_init s).symm.trans h)]; rfl, rfl, rfl, rfl⟩

/-- Settles O23. -/
theorem destroyChangesNothing : Obligations.DestroyChangesNothing := fun _ => rfl

/-- Settles O27. -/
theorem lutReturnsEntry : Obligations.LutReturnsEntry := fun _ _ => rfl

/-- Settles O32: the primitives' laws, for all integers. -/
theorem arithmeticPrimitives : Obligations.ArithmeticPrimitives := by
  refine ⟨fun v => ⟨sat_neg v, narrow_toInt v, (sat_bounds v).1, (sat_bounds v).2, sat_eq_self⟩,
    fun a n _ => ⟨tdiv_neg a n, tdiv_eq a n⟩, fun v => ?_, fun _ => rfl⟩
  rw [wrap16, BitVec.toInt_ofInt]
  exact Int.dvd_bmod_sub_self

end Sys2Proof.Machine
end

section
/-! EG.RENDER and STAGE.PROCESS computed (R200 to R204, R207, R212, R230 to R237). -/

namespace Sys2Proof.Machine

/-- The entry step 2 leaves: one more when a queued step finds the stride counted up and the hold does not pause it (R202). -/
def Eg.entryAfter (g : Eg) : Nat :=
  if (g.stepQueued = true ∧ g.currentEntry.toNat < 40) ∧ g.stride.toNat ≤ g.currentStride.toNat ∧
      (g.keyOn = false ∨ g.currentEntry.toNat ≠ g.holdPoint.toNat) then g.currentEntry.toNat + 1
  else g.currentEntry.toNat

/-- The stride counter step 2 leaves (R202). -/
def Eg.strideAfter (g : Eg) : Nat :=
  if g.stepQueued = true ∧ g.currentEntry.toNat < 40 then
    if g.currentStride.toNat < g.stride.toNat then g.currentStride.toNat + 1
    else if g.keyOn = false ∨ g.currentEntry.toNat ≠ g.holdPoint.toNat then 0 else g.currentStride.toNat
  else g.currentStride.toNat

/-- The entry after step 2 fits its six bits: one at 40 or above does not move (R202, R210). -/
theorem Eg.entryAfter_lt (g : Eg) : g.entryAfter < 64 := by
  have := g.currentEntry.isLt
  unfold Eg.entryAfter
  split <;> omega

/-- Step 2 on the whole unit (R202). -/
theorem Eg.consumeStep_eq (g : Eg) : g.consumeStep =
    { g with stepQueued := false, currentEntry := BitVec.ofNat 6 g.entryAfter,
             currentStride := BitVec.ofNat 8 g.strideAfter } := by
  unfold Eg.entryAfter Eg.strideAfter
  rcases g.consumeStep_cases with ⟨hq, hlt, h⟩ | ⟨hno, h⟩
  · rcases g.moveCursor_cases with ⟨hk, hm⟩ | ⟨hk, hfree, hm⟩ | ⟨hk, hon, heq, hm⟩
    · rw [h, hm, if_neg (by omega), if_pos ⟨hq, hlt⟩, if_pos hk]
      simp [Eg.clearQueued, BitVec.ofNat_add]
    · rw [h, hm, if_pos ⟨⟨hq, hlt⟩, hk, hfree⟩, if_pos ⟨hq, hlt⟩, if_neg (by omega), if_pos hfree]
      simp [Eg.clearQueued, BitVec.ofNat_add]
    · have hpaused : ¬(g.keyOn = false ∨ g.currentEntry.toNat ≠ g.holdPoint.toNat) := by simp [hon, heq]
      rw [h, hm, if_neg fun hc => hpaused hc.2.2, if_pos ⟨hq, hlt⟩, if_neg (by omega), if_neg hpaused]
      simp [Eg.clearQueued]
  · have hidle : ¬(g.stepQueued = true ∧ g.currentEntry.toNat < 40) := by
      rintro ⟨hq, hlt⟩
      rcases hno with hno | hno
      · exact absurd (hno.symm.trans hq) Bool.false_ne_true
      · omega
    rw [h, if_neg fun hc => hidle hc.1, if_neg hidle]
    simp [Eg.clearQueued]

/-- The level is read at the cursor, clamped to the last entry (R203). -/
theorem Eg.level_of_entry {g : Eg} {n : Nat} (h : g.currentEntry.toNat = n) : g.level = g.table[min n 39]'(by omega) := by
  subst h
  rfl

/-- Settles O24: step 1 is one of two cases, and in each the advanced unit is step 2 written out. -/
theorem egRenderRunsItsSteps : Obligations.EgRenderRunsItsSteps := by
  intro e x s
  refine ⟨_, exec_egRender e x s, ?_⟩
  intro g n0 k0 steps free n1 k1 level
  have hadv : g.advance = { g with keyReset := false, stepQueued := false, currentEntry := BitVec.ofNat 6 n1,
                                   currentStride := BitVec.ofNat 8 k1 } ∧ n1 < 64 := by
    have hlt := g.resetCursor.entryAfter_lt
    rw [Eg.advance, Eg.consumeStep_eq]
    rcases g.resetCursor_cases with ⟨hk, hr⟩ | ⟨hk, hr⟩
    · simp only [hr] at hlt ⊢
      simp only [n1, k1, steps, free, n0, k0, hk, if_true]
      exact ⟨rfl, hlt⟩
    · simp only [hr] at hlt ⊢
      simp only [n1, k1, steps, free, n0, k0, hk, Bool.false_eq_true, if_false]
      exact ⟨rfl, hlt⟩
  obtain ⟨hunit, hn1⟩ := hadv
  have hlevel : g.advance.level = level := by
    have hentry : g.advance.currentEntry.toNat = n1 := by
      rw [hunit]
      exact (BitVec.toNat_ofNat _ _).trans (Nat.mod_eq_of_lt hn1)
    rw [Eg.level_of_entry hentry]
    simp only [level, hunit]
  refine ⟨?_, ?_, fun j hj => ?_, rfl, rfl, rfl, rfl, rfl⟩
  · simp only [State.setRet_chip, State.setChip_chip, egRender_eg, if_true]
    exact hunit
  · rw [State.setRet_ret, ← hlevel, ← g.advance_config.1, ← Eg.output_eq_clamped]
    rfl
  · simp only [State.setRet_chip, State.setChip_chip, egRender_eg, if_neg hj]

theorem Chip.setEg_self (c : Chip) (e : Fin 16) : c.setEg e (c.eg e) = c := by
  refine Chip.ext_units rfl rfl (fun i => ?_) fun _ => rfl
  rw [Chip.setEg_eg]
  split
  · rename_i h
    rw [h]
  · rfl

/-- A second call of the same EG, in either mode, finds nothing to do (R207, R212). -/
theorem egRender_egRender (lut e) (x y : Bool) (c : Chip) :
    egRender lut e y (egRender lut e x c).1 = ((egRender lut e x c).1, (egRender lut e y c).2) := by
  have hunit : (egRender lut e x c).1.eg e = (c.eg e).advance := by rw [egRender_eg, if_pos rfl]
  have hidle : ((egRender lut e x c).1.eg e).advance = (egRender lut e x c).1.eg e := by
    rw [hunit, Eg.advance_advance]
  rw [egRender, hidle, Chip.setEg_self, hunit]
  rfl

/-- Settles O26: the mode selects the returned value alone, and the second call leaves the chip of the first. -/
theorem secondEgCallChangesNothing : Obligations.SecondEgCallChangesNothing := by
  intro e x y s
  refine ⟨_, _, _, exec_egRender e x s, exec_egRender e y _, ?_, exec_egRender e y s, rfl, ?_⟩
  · simp only [State.setRet_chip, State.setChip_chip, egRender_egRender]
  · simp only [State.setRet_ret, State.setRet_chip, State.setChip_chip, egRender_egRender]

@[simp] theorem clamped_toInt (v : Int) : (clamped v).toInt = sat v := by
  rw [← narrow_eq_clamped, narrow_toInt]

/-- What a stage returns, with the clamp of R8 and the division of R9 (R232, R233; the third term of the output half is 0). -/
theorem Stage.outputOf_eq_clamped (x : Stage) (d : DelayLine) :
    x.outputOf d = clamped (sat ((stageMid d x.coeff * x.coeff[3].toInt).tdiv 32768) +
      (stageMid d x.coeff * x.coeff[4].toInt).tdiv 32768) := by
  have hhalf : ∀ v, sat (sat v + 0) = sat v := fun v => by
    rw [Int.add_zero, sat_eq_self (sat_bounds v).1 (sat_bounds v).2]
  rw [← narrow_eq_clamped]
  simp only [Stage.outputOf, stageOut, hhalf, q15Term, tdiv_eq, Int.zero_add]
  rfl

/-- The intermediate value of a stage, with the division of R9 (R232). -/
theorem stageMid_eq (d : DelayLine) (k : Vector Sample 5) : stageMid d k =
    sat (sat (sat ((d.d0.toInt * k[0].toInt).tdiv 32768) + (d.d1.toInt * k[1].toInt).tdiv 32768) +
      (d.d2.toInt * k[2].toInt).tdiv 32768) := by
  simp only [stageMid, q15Term, tdiv_eq, Nat.cast_zero, Int.zero_add]

/-- Settles O28: the line is pushed (R231), and the value returned is the stage's output for the pushed line. -/
theorem stageComputesOutput : Obligations.StageComputesOutput := by
  intro c k x side s hx d q hd
  obtain ⟨h0, h1, -⟩ := hd
  have hexec := exec_stageProcess c k x side s hx
  obtain ⟨hstage, hret⟩ := stage_and_ret_of_exec_stageProcess hx hexec
  refine ⟨_, hexec, ?_⟩
  rw [hstage, hret, Stage.process_delay, if_pos rfl]
  refine ⟨rfl, negDelay_toInt h0, negDelay_toInt h1, ?_⟩
  simp only [clamped_toInt, ← negDelay_toInt h0, ← negDelay_toInt h1]
  exact congrArg Returned.sample ((Stage.outputOf_eq_clamped _ _).trans (by rw [stageMid_eq]; rfl))

/-- Settles O31: a negated entry stays in range, and what a stage returns is clamped. -/
theorem stageKeepsRange : Obligations.StageKeepsRange := by
  intro c k x side s t hx hd hexec
  obtain ⟨hstage, hret⟩ := stage_and_ret_of_exec_stageProcess hx hexec
  rw [hstage, hret, Stage.process_delay, if_pos rfl]
  exact ⟨DelayLine.push_inRange hd hx, _, rfl, toInt_of_ne_min (Stage.process_ne_min _ x side)⟩

/-- Settles O30: -32768 fails the one guard of `exec`. -/
theorem stageRefusesMinimumInput : Obligations.StageRefusesMinimumInput := fun _ _ _ _ => rfl

end Sys2Proof.Machine
end

section
/-! CH.RENDER (R260 to R272): the sequence of micro-operations, the pointer and the accumulator, and what a call leaves alone. -/

namespace Sys2Proof.Machine

/-- The scaled output is the clamp of the descaled sample times the amplitude (R266). -/
theorem channelOut_eq_clamped (y a : Sample) : channelOut y a = clamped (y.toInt.tdiv 256 * a.toInt) := by
  rw [channelOut, narrow_eq_clamped, tdiv_eq]

/-- A STAGE.PROCESS call, by the chip and the value of its rule (R230). -/
theorem callMicro_stageProcess_of_eq {c k x side} {s : State} {p : Chip × Sample} (hx : x ≠ 0x8000)
    (h : stageProcess c k x side s.chip = p) :
    ∃ t, callMicro (.stageProcess c k x side) s = some (t, p.2) ∧ t.chip = p.1 := by
  subst h
  exact ⟨_, callMicro_stageProcess c k x side s hx, rfl⟩

/-- An EG.RENDER call, by the chip and the value of its rule (R200). -/
theorem callMicro_egRender_of_eq {e x} {s : State} {p : Chip × Sample} (h : egRender Config.expLut e x s.chip = p) :
    ∃ t, callMicro (.egRender e x) s = some (t, p.2) ∧ t.chip = p.1 := by
  subst h
  exact ⟨_, callMicro_egRender e x s, rfl⟩

/-- The ten EG.RENDER calls of step 4, by the chip and the values of their rule (R264). -/
theorem callFegs_of_eq {feg : Vector EgIndex 10} {s : State} {p : Chip × Vector Sample 10}
    (h : renderFegs Config.expLut feg s.chip = p) :
    ∃ t, callFegs feg.toList s = some (t, p.2.toList) ∧ t.chip = p.1 := by
  subst h
  obtain ⟨t, hcall, hchip⟩ := callFegs_eq feg.toList s
  obtain ⟨hegs, hvals⟩ := renderFegs_eq Config.expLut feg s.chip
  exact ⟨t, hcall.trans (by rw [hvals]), hchip.trans hegs.symm⟩

/-- A CH.RENDER call taken apart into its numbered parts (R260). -/
theorem chRender_chain (lut : Byte → Int) (c : Fin 8) (side : Side) (chip : Chip) : ∃ p4 p5 p6 p7,
    renderFegs lut (chip.ch c).feg (chip.setCh c ((chip.ch c).move side)) = p4 ∧
    stageProcess c 0 (chInput c side chip) side (p4.1.modifyCh c (Channel.loadCoeffs p4.2)) = p5 ∧
    stageProcess c 1 p5.2 side p5.1 = p6 ∧ egRender lut (egOf (chip.ch c).aeg) true p6.1 = p7 ∧
    chRender lut c side chip = (p7.1.setCh c { p7.1.ch c with keyReset := false }, channelOut p6.2 p7.2) :=
  ⟨_, _, _, _, rfl, rfl, rfl, rfl, chRender_eq lut c side chip _ _ _ _ rfl rfl rfl rfl⟩

/-- The script of R260 runs to its end, and leaves the chip and the value of CH.RENDER: each call of the script is the part of
`chRender_chain` with the same number. -/
theorem chRenderScript_eq (c : Fin 8) (side : Side) (s : State) : ∃ u,
    chRenderScript c side s = some (u, (chRender Config.expLut c side s.chip).2) ∧
      u.chip = (chRender Config.expLut c side s.chip).1 := by
  obtain ⟨p4, p5, p6, p7, h4, h5, h6, h7, hchain⟩ := chRender_chain Config.expLut c side s.chip
  obtain ⟨t4, call4, chip4⟩ := callFegs_of_eq (s := s.setChip (s.chip.setCh c ((s.chip.ch c).move side))) h4
  obtain ⟨t5, call5, chip5⟩ := callMicro_stageProcess_of_eq (p := p5)
    (s := t4.setChip (t4.chip.setCh c (coeffsLoaded p4.2.toList (t4.chip.ch c)))) (chInput_ne_min c side s.chip)
    (by rw [State.setChip_chip, coeffsLoaded_eq, chip4]; exact h5)
  obtain ⟨t6, call6, chip6⟩ := callMicro_stageProcess_of_eq (p := p6) (s := t5) (h5 ▸ stageProcess_ne_min _ _ _ _ _)
    (by rw [chip5]; exact h6)
  obtain ⟨t7, call7, chip7⟩ := callMicro_egRender_of_eq (p := p7) (s := t6) (by rw [chip6]; exact h7)
  rw [hchain]
  refine ⟨t7.setChip (p7.1.setCh c { p7.1.ch c with keyReset := false }), ?_, rfl⟩
  unfold chRenderScript
  extract_lets ch p vol x
  have hx : x = chInput c side s.chip := by
    rw [chInput_eq]
    cases side <;> rfl
  have hmoved : pointerMoved side ch p = ch.move side := (Channel.move_eq side ch).symm
  have hamp : callMicro (.egRender ch.aeg.toFin true) t6 = some (t7, p7.2) := call7
  rw [hmoved, call4, hx]
  simp only [Option.bind_some, call5, call6, hamp, chip7, channelOut_eq_clamped]
  rfl

/-- Every field of a state that a micro-operation leaves: its chip, its result, and the interface as before. -/
theorem State.setChip_setRet (s : State) (c : Chip) (r : Returned) : ((s.setChip c).setRet r).chip = c ∧
    ((s.setChip c).setRet r).ret = r ∧ ((s.setChip c).setRet r).queue = s.queue ∧
    ((s.setChip c).setRet r).out = s.out := ⟨rfl, rfl, rfl, rfl⟩

/-- CH.RENDER completes; what its rule leaves is the chip, what it returns is in `ret`, the interface is as before. -/
theorem exec_chRender_parts (c : Fin 8) (side : Side) (s : State) : ∃ t, exec (.chRender c side) s = .next t ∧
    t.chip = (chRender Config.expLut c side s.chip).1 ∧ t.ret = .sample (chRender Config.expLut c side s.chip).2 ∧
    t.queue = s.queue ∧ t.out = s.out :=
  ⟨_, exec_chRender c side s, State.setChip_setRet s _ _⟩

/-- Settles O33: `chRenderScript_eq`, and the value goes to `ret`. -/
theorem channelRenderIsItsMicroOperations : Obligations.ChannelRenderIsItsMicroOperations := by
  intro c side s
  obtain ⟨u, hscript, hchip⟩ := chRenderScript_eq c side s
  obtain ⟨t, hexec, hchip', hret, hinterface⟩ := exec_chRender_parts c side s
  exact ⟨t, u, _, hexec, hscript, hchip'.trans hchip.symm, hret, hinterface⟩

/-- What steps 1 and 3 do to the pointer and the accumulator (R261, R263). -/
theorem Channel.move_ptr_acc (side : Side) (ch : Channel) :
    (side = .left → (ch.move side).ptr.toNat = pointerChecked ch ∧ (ch.move side).acc = ch.acc) ∧
    (side = .right → ch.acc = 0 →
      (ch.move side).ptr.toNat = (pointerChecked ch + 1) % 32768 ∧ (ch.move side).acc = ch.accMax) ∧
    (side = .right → ch.acc ≠ 0 →
      (ch.move side).ptr.toNat = pointerChecked ch ∧ (ch.move side).acc.toNat + 1 = ch.acc.toNat) := by
  have hp := pointerChecked_lt ch
  rw [Channel.move_eq]
  refine ⟨?_, ?_, ?_⟩
  · rintro rfl
    exact ⟨Nat.mod_eq_of_lt hp, rfl⟩
  · rintro rfl h
    have hacc : ch.acc.toNat = 0 := by rw [h]; rfl
    simp only [pointerMoved, hacc, if_true]
    exact ⟨by simp, trivial⟩
  · rintro rfl h
    have hacc : ch.acc.toNat ≠ 0 := fun h0 => h (BitVec.eq_of_toNat_eq h0)
    have := ch.acc.isLt
    simp only [pointerMoved, hacc, if_false]
    refine ⟨Nat.mod_eq_of_lt hp, ?_⟩
    rw [BitVec.toNat_ofNat]
    omega

/-- Settles O34: steps 4 to 7 touch neither field, and step 1's pointer is `pointerChecked`. -/
theorem channelPointerAndAccumulator : Obligations.ChannelPointerAndAccumulator := by
  intro c side s
  obtain ⟨t, hexec, hchip, -⟩ := exec_chRender_parts c side s
  refine ⟨t, hexec, ?_⟩
  intro ch p
  obtain ⟨hptr, hacc⟩ := Channel.rendered_ptr_acc side (chInput c side s.chip) (chCoeffs Config.expLut c side s.chip) ch
  rw [hchip, chRender_ch, if_pos rfl, hptr, hacc]
  exact Channel.move_ptr_acc side ch

/-- Settles O36: the parts of the chip a call keeps, one lemma each. -/
theorem channelRenderLeavesTheRest : Obligations.ChannelRenderLeavesTheRest := by
  intro c side s
  obtain ⟨t, hexec, hchip, -, hinterface⟩ := exec_chRender_parts c side s
  have hch := chRender_ch Config.expLut c side s.chip c
  rw [if_pos rfl, ← hchip] at hch
  refine ⟨t, hexec, ?global, ?memory, fun j hj => ?otherChannels, ?config, fun k other hother => ?otherLines,
    fun e haeg hfeg => ?otherEgs, hinterface⟩
  case global => rw [hchip, chRender_g]
  case memory => rw [hchip, chRender_mem]
  case otherChannels => rw [hchip, chRender_ch, if_neg hj]
  case config => exact hch ▸ Channel.rendered_config side _ _ _
  case otherLines =>
    obtain ⟨y, -, hdelay⟩ := (s.chip.ch c).rendered_delay side other (chInput c side s.chip)
      (chCoeffs Config.expLut c side s.chip) k
    rw [hch, hdelay, if_neg hother]
  case otherEgs =>
    rw [hchip, chRender_eg, if_neg]
    rintro (rfl | ⟨j, rfl⟩)
    · exact haeg rfl
    · exact hfeg j rfl

end Sys2Proof.Machine
end

section
/-! FRAME and RENDER (44_chip_render.md R300 to R311): the sequence of a frame, and RENDER as its frames in order. -/

namespace Sys2Proof.Machine

/-- A CH.RENDER call, by the chip and the value of its rule (R260). -/
theorem callMicro_chRender_of_eq {c side} {s : State} {p : Chip × Sample} (h : chRender Config.expLut c side s.chip = p) :
    ∃ t, callMicro (.chRender c side) s = some (t, p.2) ∧ t.chip = p.1 := by
  subst h
  exact ⟨_, callMicro_chRender c side s, rfl⟩

/-- Step (c) of R301 over a list of channels runs to its end, and leaves the chip and the totals of the frame's own run. -/
theorem frameScript_eq (ks : List (Fin 8)) (s : State) (f : StereoFrame) : ∃ u,
    frameScript ks (s, f) = some (u, (ks.foldl (addChannel Config.expLut) (s.chip, f)).2) ∧
      u.chip = (ks.foldl (addChannel Config.expLut) (s.chip, f)).1 := by
  induction ks generalizing s f with
  | nil => exact ⟨s, rfl, rfl⟩
  | cons c ks ih =>
    obtain ⟨l, hl⟩ : ∃ p, chRender Config.expLut c .left s.chip = p := ⟨_, rfl⟩
    obtain ⟨r, hr⟩ : ∃ p, chRender Config.expLut c .right l.1 = p := ⟨_, rfl⟩
    obtain ⟨t, hcallL, hchipL⟩ := callMicro_chRender_of_eq hl
    obtain ⟨u, hcallR, hchipR⟩ := callMicro_chRender_of_eq (p := r) (s := t) (by rw [hchipL, hr])
    obtain ⟨w, hscript, hchip⟩ := ih u { l := f.l + l.2, r := f.r + r.2 }
    rw [hchipR] at hscript hchip
    rw [List.foldl_cons, addChannel_eq Config.expLut s.chip f c l r hl hr]
    refine ⟨w, ?_, hchip⟩
    simp only [frameScript, hcallL, Option.bind_some, hcallR, hscript]

/-- FRAME completes; what its rule leaves is the chip, its pair is in `ret`, the interface is as before. -/
theorem exec_frame_parts (s : State) : ∃ t, exec .frame s = .next t ∧ t.chip = (frame Config.expLut s.chip).1 ∧
    t.ret = .stereo (frame Config.expLut s.chip).2 ∧ t.queue = s.queue ∧ t.out = s.out :=
  ⟨_, exec_frame s, State.setChip_setRet s _ _⟩

/-- Settles O37: the marking is `markReferenced`, and the script over the eight channels is the frame's run over them. -/
theorem frameIsItsMicroOperations : Obligations.FrameIsItsMicroOperations := by
  intro s
  obtain ⟨t, hexec, hchip, hret, hinterface⟩ := exec_frame_parts s
  obtain ⟨u, hscript, hchip'⟩ := frameScript_eq chOrder s.marked { l := 0, r := 0 }
  rw [marked_chip] at hscript hchip'
  exact ⟨t, u, _, hexec, hscript, hchip.trans hchip'.symm, hret, hinterface⟩

/-- RENDER completes; its frames leave the chip and emit their pairs, and the queue and `ret` are as before. -/
theorem exec_render_parts (n : BitVec 32) (s : State) : ∃ t, exec (.render n) s = .next t ∧
    t.chip = (renderFrames Config.expLut n.toNat s.chip).1 ∧
    t.out = s.out ++ (renderFrames Config.expLut n.toNat s.chip).2 ∧ t.queue = s.queue ∧ t.ret = s.ret :=
  ⟨_, exec_render n s, State.emit_chip _ _, State.emit_out _ _, State.emit_queue _ _, State.emit_ret _ _⟩

/-- RENDER of a count written as a number that fits 32 bits. -/
theorem exec_render_ofNat {m : Nat} (hm : m < 2 ^ 32) (s : State) : ∃ t, exec (.render (BitVec.ofNat 32 m)) s = .next t ∧
    t.chip = (renderFrames Config.expLut m s.chip).1 := by
  obtain ⟨t, hexec, hchip, -⟩ := exec_render_parts (BitVec.ofNat 32 m) s
  rw [BitVec.toNat_ofNat, Nat.mod_eq_of_lt hm] at hchip
  exact ⟨t, hexec, hchip⟩

/-- RENDER depends on the chip and on what has been emitted; nothing else of the state is read. -/
theorem exec_render_with (n : BitVec 32) (s : State) (c : Chip) (o : List StereoFrame) :
    exec (.render n) { s with chip := c, out := o } =
      .next { s with chip := (renderFrames Config.expLut n.toNat c).1, out := o ++ (renderFrames Config.expLut n.toNat c).2 } :=
  exec_render n _

/-- Counts whose sum fits 32 bits add as numbers. -/
theorem toNat_add_of_lt {a b : BitVec 32} (h : a.toNat + b.toNat < 2 ^ 32) : (a + b).toNat = a.toNat + b.toNat := by
  rw [BitVec.toNat_add, Nat.mod_eq_of_lt h]

/-- Settles O38: the recursion of `renderFrames`. -/
theorem renderIsFramesInOrder : Obligations.RenderIsFramesInOrder := by
  refine fun s => ⟨?zero, fun n hn => ?succ, fun n => ?completes⟩
  case zero =>
    have h := exec_render_with 0 s s.chip s.out
    rwa [show (0 : BitVec 32).toNat = 0 from rfl, renderFrames_zero, List.append_nil] at h
  case succ =>
    obtain ⟨u, hexec, hchip, hret, -⟩ := exec_frame_parts s
    refine ⟨u, _, hexec, hret, ?_⟩
    have hcount : (n + 1).toNat = n.toNat + 1 := toNat_add_of_lt hn
    rw [hchip]
    refine (exec_render_with (n + 1) s s.chip s.out).trans ?_
    simp only [hcount, renderFrames_succ, exec_render_with, List.append_assoc, List.singleton_append]
  case completes =>
    obtain ⟨t, hexec, -, -, hkept⟩ := exec_render_parts n s
    exact ⟨t, hexec, hkept⟩

@[simp] theorem interleave_length (fs : List StereoFrame) : (interleave fs).length = 2 * fs.length := by
  induction fs with
  | nil => rfl
  | cons f fs ih => simp only [interleave, List.length_cons, ih, Nat.mul_add_one]

/-- The buffer holds pair i at indices 2i and 2i + 1, left first (R305). -/
theorem interleave_getElem? {fs : List StereoFrame} {i : Nat} {f : StereoFrame} (h : fs[i]? = some f) :
    (interleave fs)[2 * i]? = some f.l ∧ (interleave fs)[2 * i + 1]? = some f.r := by
  induction fs generalizing i with
  | nil => simp at h
  | cons f' fs ih =>
    cases i with
    | zero =>
      obtain rfl : f' = f := by simpa using h
      exact ⟨rfl, rfl⟩
    | succ i => exact ih (by simpa using h)

/-- Settles O39: n frames give n pairs, and the buffer is their interleaving. -/
theorem bufferInterleavesPairs : Obligations.BufferInterleavesPairs := by
  intro n s
  obtain ⟨t, hexec, -, hout, -⟩ := exec_render_parts n s
  exact ⟨t, _, hexec, hout, renderFrames_length _ _ _, by rw [interleave_length, renderFrames_length],
    fun _ _ => interleave_getElem?⟩

/-- Settles O40: `renderFrames` over a sum of counts. -/
theorem renderSplits : Obligations.RenderSplits := by
  intro a b s hab
  refine ⟨_, exec_render_with a s s.chip s.out, ?_⟩
  refine (exec_render_with (a + b) s s.chip s.out).trans ?_
  simp only [toNat_add_of_lt hab, renderFrames_add, exec_render_with, List.append_assoc]

end Sys2Proof.Machine
end

section
/-! Time counted in frames (R208, R271, R311): the cursor of an EG and the read pointer of a channel, frame by frame. -/

namespace Sys2Proof.Machine

@[simp] theorem renderFrames_references (lut n) (c : Chip) (e : Fin 16) :
    (renderFrames lut n c).1.References e ↔ c.References e :=
  renderFrames_induction lut (P := fun d => d.References e ↔ c.References e)
    (fun d h => (frame_references lut d e).trans h) n Iff.rfl

/-- The EG has key-reset and key-on clear, and has dwelt `m` steps at stride `S` since entry 0: `S + 1` steps an entry (R208). -/
structure Eg.Dwelt (S m : Nat) (g : Eg) : Prop where
  keyReset : g.keyReset = false
  keyOn : g.keyOn = false
  stride : g.stride.toNat = S
  steps : g.currentStride.toNat + (S + 1) * g.currentEntry.toNat = m
  counter : g.currentStride.toNat < S + 1

/-- A consumed step counts once more, up to the terminal entry (R202, R208). -/
theorem Eg.Dwelt.step {S m : Nat} {g : Eg} (h : g.Dwelt S m) (hm : m < 40 * (S + 1)) : g.queueStep.advance.Dwelt S (m + 1) := by
  obtain ⟨hkr, hon, hS, hsteps, hcounter⟩ := h
  have hentry : g.currentEntry.toNat < 40 := by
    refine Nat.lt_of_mul_lt_mul_left (a := S + 1) ?_
    rw [Nat.mul_comm _ 40]
    omega
  obtain ⟨-, -, hstride, -, hkeyOn⟩ := g.queueStep.advance_config
  obtain ⟨he, hk⟩ := Eg.queueStep_advance hkr hon hentry
  rw [hS] at he hk
  refine ⟨Eg.advance_keyReset _, hkeyOn.trans hon, by rw [hstride]; exact hS, ?_, ?_⟩
  · rw [he, hk]
    split
    · omega
    · rw [Nat.mul_add_one]
      omega
  · rw [hk]
    split <;> omega

/-- A key-reset consumed by a call starts the count: the call is the one that runs with the cursor at (0, 0) (R201). -/
theorem Eg.queueStep_advance_of_keyReset (g : Eg) : g.queueStep.advance = g.resetCursor.queueStep.advance := by
  have hcomm : g.queueStep.resetCursor = g.resetCursor.queueStep := by
    unfold Eg.resetCursor Eg.queueStep
    split <;> rfl
  rw [Eg.advance, Eg.advance, hcomm, Eg.resetCursor_eq_self (g := g.resetCursor.queueStep) (Eg.resetCursor_keyReset g)]

/-- A unit with a key-reset pending starts the count at 0 (R201). -/
theorem Eg.resetCursor_dwelt {g : Eg} (hkr : g.keyReset = true) (hon : g.keyOn = false) :
    g.resetCursor.Dwelt g.stride.toNat 0 := by
  rcases g.resetCursor_cases with ⟨-, h⟩ | ⟨h, -⟩
  · rw [h]
    exact ⟨rfl, hon, rfl, rfl, Nat.succ_pos _⟩
  · exact absurd (h.symm.trans hkr) Bool.false_ne_true

/-- From a pending key-reset with the key off, m frames are m counted steps (R208). -/
theorem renderFrames_dwelt (lut) {c : Chip} {e : Fin 16} (href : c.References e) (hkr : (c.eg e).keyReset = true)
    (hon : (c.eg e).keyOn = false) {m : Nat} (h1 : 1 ≤ m) (hm : m ≤ 40 * ((c.eg e).stride.toNat + 1)) :
    ((renderFrames lut m c).1.eg e).Dwelt (c.eg e).stride.toNat m := by
  induction m, h1 using Nat.le_induction with
  | base =>
    rw [renderFrames_succ, renderFrames_zero, frame_eg_eq, if_pos href, Eg.queueStep_advance_of_keyReset]
    exact (Eg.resetCursor_dwelt hkr hon).step (by omega)
  | succ m _ ih =>
    rw [renderFrames_snoc, frame_eg_eq, if_pos ((renderFrames_references lut m c e).mpr href)]
    exact (ih (by omega)).step (by omega)

/-- Settles O45: m steps of S + 1 an entry leave the quotient in the entry and the remainder in the counter. -/
theorem egDwellsStridePlusOneFrames : Obligations.EgDwellsStridePlusOneFrames := by
  intro s e m href hkr hon h1 hm
  have hstride := (s.chip.eg e).stride.isLt
  obtain ⟨t, hexec, hchip⟩ := exec_render_ofNat (m := m) (by omega) s
  have hdwelt := renderFrames_dwelt Config.expLut href hkr hon h1 hm
  rw [← hchip] at hdwelt
  obtain ⟨hdiv, hmod⟩ := (Nat.div_mod_unique (Nat.succ_pos _)).mpr ⟨hdwelt.steps, hdwelt.counter⟩
  exact ⟨t, hexec, hdiv.symm, hmod.symm⟩

/-- No restart is pending: key-reset clear, and the pointer not past the loop's end (R261). -/
structure Channel.InLoop (ch : Channel) : Prop where
  keyReset : ch.keyReset = false
  ptr_le : ch.ptr.toNat ≤ ch.loopEnd.toNat % 32768

/-- In the loop step 1 keeps the pointer (R261). -/
theorem Channel.InLoop.pointerChecked_eq {ch : Channel} (h : ch.InLoop) : pointerChecked ch = ch.ptr.toNat := by
  rw [pointerChecked, if_neg]
  rintro (hkr | hlt)
  · exact absurd (h.keyReset.symm.trans hkr) Bool.false_ne_true
  · exact absurd hlt (Nat.not_lt.mpr h.ptr_le)

/-- In the loop a Left call keeps pointer and accumulator (R261, R263). -/
theorem Channel.InLoop.rendered_left {ch : Channel} (h : ch.InLoop) (x v) : (ch.rendered .left x v).InLoop ∧
    (ch.rendered .left x v).ptr = ch.ptr ∧ (ch.rendered .left x v).acc = ch.acc := by
  obtain ⟨hptr, hacc⟩ := Channel.rendered_ptr_acc .left x v ch
  obtain ⟨hleft, -, -⟩ := Channel.move_ptr_acc .left ch
  obtain ⟨-, -, -, -, -, -, hloopEnd⟩ := Channel.rendered_config .left x v ch
  obtain ⟨hmptr, hmacc⟩ := hleft rfl
  rw [h.pointerChecked_eq] at hmptr
  have hptr' : (ch.rendered .left x v).ptr = ch.ptr := hptr.trans (BitVec.eq_of_toNat_eq hmptr)
  exact ⟨⟨Channel.rendered_keyReset _ _ _ _, by rw [hptr', hloopEnd]; exact h.ptr_le⟩, hptr', hacc.trans hmacc⟩

/-- One frame in the loop: the pointer advances and the accumulator reloads when it is 0, and counts down otherwise; the flag stays
clear (R261, R263, R267). -/
theorem frame_ptr_acc (lut) {c : Chip} {k : Fin 8} (h : (c.ch k).InLoop) :
    ((frame lut c).1.ch k).keyReset = false ∧
    ((c.ch k).acc = 0 → ((frame lut c).1.ch k).ptr.toNat = ((c.ch k).ptr.toNat + 1) % 32768 ∧
      ((frame lut c).1.ch k).acc = (c.ch k).accMax) ∧
    ((c.ch k).acc ≠ 0 → ((frame lut c).1.ch k).ptr.toNat = (c.ch k).ptr.toNat ∧
      ((frame lut c).1.ch k).acc.toNat + 1 = (c.ch k).acc.toNat) := by
  obtain ⟨x, v, x', v', -, -, hch⟩ := frame_ch lut c k
  obtain ⟨hloop, hptr, hacc⟩ := h.rendered_left x v
  obtain ⟨-, -, haccMax, -⟩ := Channel.rendered_config .left x v (c.ch k)
  obtain ⟨hptr', hacc'⟩ := Channel.rendered_ptr_acc .right x' v' ((c.ch k).rendered .left x v)
  obtain ⟨-, hzero, hpos⟩ := Channel.move_ptr_acc .right ((c.ch k).rendered .left x v)
  rw [hloop.pointerChecked_eq, hptr, hacc] at hzero hpos
  rw [haccMax] at hzero
  rw [hch, hptr', hacc']
  exact ⟨Channel.rendered_keyReset _ _ _ _, hzero rfl, hpos rfl⟩

/-- Where a channel stands `m` frames after its pointer left `p` with the accumulator at 0: one position on, the accumulator
counting down from its maximum (R271). -/
structure Channel.Advanced (p m : Nat) (ch : Channel) : Prop where
  keyReset : ch.keyReset = false
  ptr_eq : ch.ptr.toNat = p + 1
  ptr_le : p + 1 ≤ ch.loopEnd.toNat % 32768
  acc_eq : ch.acc.toNat + m = ch.accMax.toNat + 1

/-- The first frame of a period advances the pointer and reloads the accumulator (R271). -/
theorem frame_advanced_one (lut) {c : Chip} {k : Fin 8} (hkr : (c.ch k).keyReset = false) (hacc : (c.ch k).acc = 0)
    (hptr : (c.ch k).ptr.toNat + 1 ≤ (c.ch k).loopEnd.toNat % 32768) :
    ((frame lut c).1.ch k).Advanced (c.ch k).ptr.toNat 1 := by
  obtain ⟨hkr', hzero, -⟩ := frame_ptr_acc lut (k := k) ⟨hkr, Nat.le_of_succ_le hptr⟩
  obtain ⟨hptr', hacc'⟩ := hzero hacc
  obtain ⟨-, -, haccMax, -, -, -, hloopEnd⟩ := frame_ch_sameConfig lut c k
  refine ⟨hkr', ?_, by rw [hloopEnd]; exact hptr, by rw [hacc', haccMax]⟩
  rw [hptr', Nat.mod_eq_of_lt (by omega)]

/-- Each further frame of the period counts down and keeps the pointer (R271). -/
theorem frame_advanced_succ (lut) {c : Chip} {k : Fin 8} {p m : Nat} (h : (c.ch k).Advanced p m)
    (hm : m ≤ (c.ch k).accMax.toNat) : ((frame lut c).1.ch k).Advanced p (m + 1) := by
  obtain ⟨hkr, hptr, hle, hacc⟩ := h
  obtain ⟨hkr', -, hpos⟩ := frame_ptr_acc lut (k := k) ⟨hkr, hptr ▸ hle⟩
  have hne : (c.ch k).acc ≠ 0 := by
    intro h0
    rw [h0] at hacc
    simp at hacc
    omega
  obtain ⟨hptr', hacc'⟩ := hpos hne
  obtain ⟨-, -, haccMax, -, -, -, hloopEnd⟩ := frame_ch_sameConfig lut c k
  exact ⟨hkr', hptr'.trans hptr, by rw [hloopEnd]; exact hle, by rw [haccMax]; omega⟩

/-- The frames of one period, from an accumulator of 0 inside the loop (R271). -/
theorem renderFrames_advanced (lut) {c : Chip} {k : Fin 8} (hkr : (c.ch k).keyReset = false) (hacc : (c.ch k).acc = 0)
    (hptr : (c.ch k).ptr.toNat + 1 ≤ (c.ch k).loopEnd.toNat % 32768) {m : Nat} (h1 : 1 ≤ m)
    (hm : m ≤ (c.ch k).accMax.toNat + 1) : ((renderFrames lut m c).1.ch k).Advanced (c.ch k).ptr.toNat m := by
  induction m, h1 using Nat.le_induction with
  | base => exact frame_advanced_one lut hkr hacc hptr
  | succ m _ ih =>
    obtain ⟨-, -, haccMax, -⟩ := renderFrames_ch_sameConfig lut m c k
    rw [renderFrames_snoc]
    exact frame_advanced_succ lut (ih (by omega)) (by rw [haccMax]; omega)

/-- Settles O47: one period of the rate divider. -/
theorem pointerAdvancesOncePerPeriod : Obligations.PointerAdvancesOncePerPeriod := by
  intro s c m hacc hkr hptr h1 hm
  have haccMaxLt := (s.chip.ch c).accMax.isLt
  obtain ⟨t, hexec, hchip⟩ := exec_render_ofNat (m := m) (by omega) s
  have hadvanced := renderFrames_advanced Config.expLut hkr hacc hptr h1 hm
  obtain ⟨-, -, haccMax, -⟩ := renderFrames_ch_sameConfig Config.expLut m s.chip c
  rw [← hchip] at hadvanced haccMax
  have hdown := hadvanced.acc_eq
  exact ⟨t, hexec, hadvanced.ptr_eq, by rw [haccMax] at hdown; omega⟩

/-! The first frame of the reset state (R311): silent, because every amplitude EG has multiplier 0. -/

/-- Every EG has multiplier 0. -/
def Chip.Muted (c : Chip) : Prop := ∀ e, (c.eg e).multiplier = 0

theorem Eg.output_of_multiplier_zero (lut x) {g : Eg} (h : g.multiplier = 0) : g.output lut x = 0 := by
  rw [Eg.output_eq_clamped, h, show (0 : Byte).toInt = 0 from rfl, Int.zero_mul]
  rfl

/-- With amplitude 0 a channel returns 0, whatever its filters give (R266). -/
theorem channelOut_zero (y : Sample) : channelOut y 0 = 0 := by
  rw [channelOut_eq_clamped, show (0 : Sample).toInt = 0 from rfl, Int.mul_zero]
  rfl

theorem renderFegs_muted (lut feg) {c : Chip} (h : c.Muted) : (renderFegs lut feg c).1.Muted := by
  intro e
  rw [renderFegs_eg]
  split
  · exact (c.eg e).advance_config.1.trans (h e)
  · exact h e

theorem chRender_muted (lut k side) {c : Chip} (h : c.Muted) : (chRender lut k side c).1.Muted := by
  intro e
  rw [chRender_eg]
  split
  · exact (c.eg e).advance_config.1.trans (h e)
  · exact h e

theorem stageProcess_muted (k j x side) {c : Chip} (h : c.Muted) : (stageProcess k j x side c).1.Muted := fun e =>
  (congrArg Eg.multiplier (stageProcess_eg k j x side c e)).trans (h e)

theorem egRender_snd_of_muted (lut e x) {c : Chip} (h : c.Muted) : (egRender lut e x c).2 = 0 :=
  Eg.output_of_multiplier_zero lut x ((c.eg e).advance_config.1.trans (h e))

/-- On a muted chip the amplitude is 0, so a channel returns 0, whatever it plays (R266). -/
theorem chRender_snd_of_muted (lut k side) {c : Chip} (h : c.Muted) : (chRender lut k side c).2 = 0 := by
  obtain ⟨p4, p5, p6, p7, h4, h5, h6, h7, hchain⟩ := chRender_chain lut k side c
  have hm4 : p4.1.Muted := h4 ▸ renderFegs_muted lut (c.ch k).feg (c := c.setCh k ((c.ch k).move side)) h
  have hm5 : p5.1.Muted := h5 ▸ stageProcess_muted k 0 _ side (c := p4.1.modifyCh k (Channel.loadCoeffs p4.2)) hm4
  have hm6 : p6.1.Muted := h6 ▸ stageProcess_muted k 1 _ side hm5
  have hamp : p7.2 = 0 := h7 ▸ egRender_snd_of_muted lut _ true hm6
  rw [hchain, hamp, channelOut_zero]

/-- Muted channels add nothing to the totals (R304). -/
theorem addChannel_foldl_of_muted (lut) (ks : List (Fin 8)) {c : Chip} (f : StereoFrame) (h : c.Muted) :
    (ks.foldl (addChannel lut) (c, f)).2 = f := by
  induction ks generalizing c with
  | nil => rfl
  | cons k ks ih =>
    have hl := chRender_muted lut k .left h
    rw [List.foldl_cons, addChannel_eq lut c f k _ _ rfl rfl, chRender_snd_of_muted lut k .left h,
      chRender_snd_of_muted lut k .right hl, add_zero, add_zero]
    exact ih (chRender_muted lut k .right hl)

theorem markReferenced_muted {c : Chip} (h : c.Muted) : c.markReferenced.Muted := by
  intro e
  rw [markReferenced_eg]
  split <;> exact h e

/-- A muted chip renders silence (R301). -/
theorem frame_snd_of_muted (lut) {c : Chip} (h : c.Muted) : (frame lut c).2 = { l := 0, r := 0 } :=
  addChannel_foldl_of_muted lut chOrder _ (markReferenced_muted h)

/-- The reset channels reference EG 0 alone (R311). -/
theorem reset_references (e : Fin 16) : Chip.reset.References e ↔ e = 0 := by
  simp only [Chip.References, Chip.reset_ch]
  revert e
  decide

/-- Settles O44: the reset chip is muted, EG 0 takes one step, and every channel starts in its loop with accumulator 0. -/
theorem frameOfResetState : Obligations.FrameOfResetState := by
  obtain ⟨t, hexec, hchip, hret, -⟩ := exec_frame_parts State.reset
  change t.chip = (frame Config.expLut Chip.reset).1 at hchip
  have hmuted : Chip.reset.Muted := fun e => by rw [Chip.reset_eg]; rfl
  have hzero : t.chip.eg 0 = Eg.reset.queueStep.advance := by
    rw [hchip, frame_eg_eq, if_pos ((reset_references 0).mpr rfl), Chip.reset_eg]
  refine ⟨t, hexec, hret.trans (congrArg _ (frame_snd_of_muted _ hmuted)), by rw [hzero]; decide,
    by rw [hzero]; decide, fun e he => ?_, fun c => ?_⟩
  · rw [hchip, frame_eg_eq, if_neg (mt (reset_references e).mp he)]
    rfl
  · obtain ⟨-, hadvance, -⟩ := frame_ptr_acc Config.expLut (c := Chip.reset) (k := c)
      (by rw [Chip.reset_ch]; exact ⟨rfl, Nat.zero_le _⟩)
    rw [Chip.reset_ch, ← hchip] at hadvance
    obtain ⟨hptr, hacc⟩ := hadvance rfl
    exact ⟨BitVec.eq_of_toNat_eq hptr, hacc⟩

end Sys2Proof.Machine
end
